-- ==== Sys2Proof/Word.lean ====
section
/-!
DEFINITION. The word and byte types, and the operand types of the commands (who makes a register access,
packet headers, received frames, the outcome of a coded read).
-/
namespace Sys2Proof

/-- A 32-bit register or packet word (R13, R47). -/
abbrev Word := BitVec 32

/-- A byte (R49). -/
abbrev Byte := BitVec 8

/-- A channel word of 64 bits (R174). -/
abbrev Word64 := BitVec 64

/-- Who makes a register access (R30): the Gatehouse for the host, engine `e`, fabric logic of terrace `t`,
or a Belvedere consuming read (R531). -/
inductive Accessor where
  | host
  | engine (e : Nat)
  | fabric (t : Nat)
  | belvedere
deriving DecidableEq, Repr

/-- Word 0 and word 1 of a command packet but for opcode and length (R47). -/
structure Hdr where
  flags : Byte := 0
  tag : BitVec 16 := 1
  target : BitVec 16 := 0
deriving DecidableEq, Repr

/-- A channel frame as received: header, payload words, trailer and whether a coding error lies in it (R174, R175). With
`part` the frame is still in progress and the payload is what has come of it (R211, R212). `age` is the time in ps since the first
bit of the header arrived (R122). -/
structure RxFrame where
  header : Word64
  payload : List Word64 := []
  trailer : Word64
  codingErr : Bool := false
  part : Bool := false
  age : Nat := 0
deriving DecidableEq, Repr

/-- What a coded memory's decoder says of one read (R484, R486, R488). `forged` is a word that passes the code, and
`miscorrected` one that the code corrects, to a word that is not the one written, which only a tag shows (R401, R402, R427). -/
inductive Upset where
  | clean
  | corrected
  | uncorrectable
  | forged
  | miscorrected
deriving DecidableEq, Repr, Inhabited

/-- What a memory without tags sees of an outcome. -/
def Upset.seen : Upset → Upset
  | .forged => .clean
  | .miscorrected => .corrected
  | u => u

/-- What befalls a stored word: its scrubber reads it, with an outcome; or it takes an error that its next reader meets (R484,
R486, R497). -/
inductive PatrolGot where
  | reads (u : Upset)
  | struck (u : Upset)
deriving DecidableEq, Repr, Inhabited

/-- Kinds of Ridgeway packet (R259). `reserved` carries an undefined KIND. -/
inductive RwKind where
  | read | write | posted | modify | rdata | done | err | pack | holding
  | reserved (k : Nat)
deriving DecidableEq, Repr

/-- A Ridgeway packet (R259): the fields of its header flit, and its payload from bits [127:0] of that flit on. The mask of a
MODIFY stands in bits [127:96]; `reason` is RLEN in a READ. -/
structure RwPkt where
  pri : Nat := 1
  kind : RwKind
  dst : Nat
  src : Nat
  flits : Nat := 0
  seq : BitVec 16 := 0
  reason : Byte := 0
  key : Nat := 0
  addr : Word := 0
  data : Word := 0
  mask : Word := 0
  payload : List Word := []
deriving DecidableEq, Repr

/-- Where a request packet stands (R265, R266): it leaves a port whose user logic or hub block the model does not run, at a
terrace port for user logic or for its general Cistern (R262), or it reaches its target port. -/
inductive RwMove where
  | leaves (p : RwPkt) (cistern : Bool)
  | arrives (p : RwPkt)
deriving DecidableEq, Repr

def RwMove.pkt : RwMove → RwPkt
  | .leaves p _ | .arrives p => p

/-- What an input finds of a flit (R263, R264): a single-bit error in a code, corrected; or an error it cannot correct, in
the flit as first sent or as sent again that many times. -/
inductive FlitCheck where
  | corrected
  | uncorrectable (replays : Nat)
deriving DecidableEq, Repr

/-- A source of frames for an Orchard queue (R229, R234): a Cistern's Orchard sink, or a terrace's Orchard
enqueue port with the queue it names, the length on its SOF word (0 unknown), its bytes and its ABORT. -/
inductive OrcSource where
  | cistern (i : Nat)
  | port (t q len : Nat) (bytes : List Byte) (abort : Bool)
deriving DecidableEq, Repr

/-- A node of the counter tree (R229). -/
inductive TreeNode where
  | queue (q : Nat)
  | cls (r c : Nat)
  | ridge (r : Nat)
  | device
deriving DecidableEq, Repr

/-- A memory met by an on-chip patrol scrubber, with the place of the word (R497, R484). -/
inductive PatrolPlace where
  | orchardCell (q frame cell : Nat)
  | orchardTag (q : Nat)
  | queueDescriptor (q : Nat)
  | counterNode (n : TreeNode)
  | scratchpad (e addr : Nat)
  | cisternLine (i line : Nat)
  | launchBuffer (c q : Nat)
  | retryBuffer (c : Nat)
  | threadEntry (t word : Nat)
  | flowEntry (f word : Nat)
  | cairnEntry (k word : Nat)
  | overlayStore (n : Nat)
  | keySlot (k : Nat)
  | logEntry (seq : Nat)
deriving DecidableEq, Repr

/-- A waiting post's source (R377-R380). -/
inductive PostSrc where
  | engine (e : Nat)
  | queue (q : Nat)
  | channel (c ev : Nat)
  | cistern (i ev : Nat)
deriving DecidableEq, Repr

/-- What lost its link (R36, R271): ridge gateway `r`, inter-ridge link `n` of R22, hub link of ridge `r`. -/
inductive LinkLoss where
  | gateway (r : Nat)
  | interRidge (n : Nat)
  | hubLink (r : Nat)
deriving DecidableEq, Repr

/-- What a receiver on a published coding finds in its stream (R166, R167): comma alignment gained or lost, at steps 0 to
4, or the 2-bit sync headers of the blocks received one after the other, at steps 5 to 9. -/
inductive LockReport where
  | comma (aligned : Bool)
  | headers (hs : List Nat)
deriving DecidableEq, Repr

/-! ### Terraces (R278-R305) -/

/-- A port of a block memory: A, or B (R299). -/
structure BramPort where
  mem : Nat
  b : Bool := false
deriving DecidableEq, Repr

/-- An edge at a pin: its direction, and how long the level lasts before it and after it, in ps (R319). -/
structure PinEdge where
  falling : Bool := false
  before : Nat := 1250
  after : Nat := 1250
deriving DecidableEq, Repr

/-- What the other port of a block memory does at the address a port writes, on the same edge or within 250 ps (R303):
nothing; a read, which on another line returns the new word or the old; a write of a word, whose line's edge leaves this
port's word stored or the other's. -/
inductive BramMeet where
  | alone
  | read (new : Bool)
  | write (other : List Word64) (mine : Bool)
deriving DecidableEq, Repr

/-- A wire of a hard port toward user logic: the head word of a Cistern at its read port, valid, tag and data (R209, R215), the
write port's ready (R207), the pressure port's answer (R233); other wires by a number. -/
inductive HardOut where
  | valid (cistern : Nat)
  | tag (cistern k : Nat)
  | data (cistern k : Nat)
  | ready
  | xoff
  | other (port k : Nat)
deriving DecidableEq, Repr, Inhabited

/-- A source of a terrace's crossbar (R281). Outputs of cell c: 0 O6, 1 O5, 2 its sum, 3 its carry-out, 4 FA, 5 FB. Bits of
slice n: P, then OVF at 64. Bits of memory port 2m (A) or 2m + 1 (B): data out, then CE at 128 and UE at 129. The hard ports:
strobe lines, the local Frame Position (SF above FRPH) and Device Time, the words of pins, the window's request (address
[16:2], WRITE, PEEK, write data from bit 0 up), the stimulus word, and the wires of the other ports. -/
inductive FabSource where
  | cell (c k : Nat)
  | slice (n k : Nat)
  | bram (port k : Nat)
  | spur (w : Nat)
  | spine (n : Nat)
  | strobe (k : Nat)
  | framePos (k : Nat)
  | devTime (k : Nat)
  | pin (p k : Nat)
  | window (k : Nat)
  | stim (k : Nat)
  | hard (x : HardOut)
deriving DecidableEq, Repr, Inhabited

/-- A wire that user logic drives at a hard port: the general Cistern's write port, its valid, data and EOF, and the number of
bytes of a last word; the read port of a Cistern takes its word; the Orchard and the pressure port are asked, with a queue number; the window
port is answered by ACK or by ERR, with read data (R207, R215, R224, R233, R305). -/
inductive HardIn where
  | wrValid
  | wrData (k : Nat)
  | wrEof
  | wrBytes (k : Nat)
  | rdTake (cistern : Nat)
  | dqTake
  | pressAsk
  | queueNo (k : Nat)
  | winAck
  | winErr
  | winData (k : Nat)
deriving DecidableEq, Repr, Inhabited

/-- An input that the crossbar drives (R281): of a cell its LUT's I0 to I5, bypass, clock enable and a chain's first
carry-in; a bay's synchronous reset; of a slice the bits of A, B, D, C and the opcode fields (fields 0 to 4); a pin's word,
output enable and SLIP (R316); of a memory port, numbered 2m for A and 2m + 1 for B, its enable, write strobe, address and data
in (R299); a user-gated line's enable (R342); and the wires of the hard ports (R283). -/
inductive FabInput where
  | lut (c k : Nat)
  | bypass (c : Nat)
  | enable (c : Nat)
  | carryIn (c : Nat)
  | reset (bay : Nat)
  | slice (n field k : Nat)
  | pinWord (p k : Nat)
  | pinEnable (p : Nat)
  | slip (p : Nat)
  | memEnable (port : Nat)
  | memStrobe (port : Nat)
  | memAddr (port k : Nat)
  | memData (port k : Nat)
  | lineEnable (l : Nat)
  | hard (x : HardIn)
deriving DecidableEq, Repr, Inhabited

/-- A physical fault of a cell of a memory (R520): it always reads one value, or does not take a change to 1 or to 0. -/
inductive CellFault where
  | stuck (v : Bool)
  | noRise
  | noFall
deriving DecidableEq, Repr, Inhabited

/-- What stage 2 selects for an input: an output of stage 1, a Spur that arrives, a Spine's reader (R281, R284, R286). -/
inductive FabTap where
  | stage1 (k : Nat)
  | spur (w : Nat)
  | spine (n : Nat)
deriving DecidableEq, Repr, Inhabited

/-- Where a Spur that arrives in a terrace comes from: its source terrace, that terrace's stage 1 output, and the terraces it
passes through (R284). -/
structure SpurRoute where
  source : Nat
  out : Nat
  via : List Nat
deriving DecidableEq, Repr, Inhabited

/-- What a clock line of a terrace clocks (R280, R290): a bay, a slice, a memory port, a Spine driver, a hard port. -/
inductive FabClock where
  | bay (b : Nat)
  | slice (n : Nat)
  | bram (port : Nat)
  | spine (n : Nat)
  | strobe (k : Nat)
  | hard (port : Nat)
deriving DecidableEq, Repr, Inhabited

end Sys2Proof
end

