-- ==== Sys2Proof/Machine/Bits.lean ====
section
/-!
DEFINITION. Bit fields of words, sign extension, rounding and byte order helpers.
-/
namespace Sys2Proof

/-- Field [hi:lo] of a word as a number (R9). -/
def fld (w : Word) (hi lo : Nat) : Nat := w.toNat / 2 ^ lo % 2 ^ (hi - lo + 1)

/-- Bit n of a word (R9). -/
def bit (w : Word) (n : Nat) : Bool := w.getLsbD n

/-- The mask of field [hi:lo]. -/
def maskOf (hi lo : Nat) : Word := BitVec.ofNat 32 ((2 ^ (hi - lo + 1) - 1) * 2 ^ lo)

/-- The word with field [hi:lo] replaced. -/
def putFld (w : Word) (hi lo v : Nat) : Word :=
  (w &&& ~~~(maskOf hi lo)) ||| (BitVec.ofNat 32 (v % 2 ^ (hi - lo + 1) * 2 ^ lo))

/-- The word with bit n replaced. -/
def putBit (w : Word) (n : Nat) (b : Bool) : Word := putFld w n n (if b then 1 else 0)

/-- A number as a field at bit lo. -/
def at_ (lo v : Nat) : Word := BitVec.ofNat 32 (v * 2 ^ lo)

/-- A flag as bit n. -/
def flag (n : Nat) (b : Bool) : Word := if b then BitVec.ofNat 32 (2 ^ n) else 0

/-- A word from its number. -/
def w32 (n : Nat) : Word := BitVec.ofNat 32 n

/-- Low 32 bits of a number at word position k (0 lowest). -/
def wordOf (n k : Nat) : Word := BitVec.ofNat 32 (n / 2 ^ (32 * k))

/-- A signed number as a 32-bit word, saturating (R110). -/
def satWord (x : Int) : Word :=
  if x < -2147483648 then BitVec.ofInt 32 (-2147483648)
  else if 2147483647 < x then BitVec.ofInt 32 2147483647
  else BitVec.ofInt 32 x

/-- x clamped to lo..hi. -/
def clampInt (lo hi x : Int) : Int := if x < lo then lo else if hi < x then hi else x

/-- The signed reading of the low n bits. -/
def signedOf (n v : Nat) : Int :=
  let m := v % 2 ^ n
  if m < 2 ^ (n - 1) then (m : Int) else (m : Int) - (2 ^ n : Nat)

/-- The bytes of a word, most significant first (R47, R49). -/
def wordBytes (w : Word) : List Byte :=
  [BitVec.ofNat 8 (w.toNat / 2 ^ 24), BitVec.ofNat 8 (w.toNat / 2 ^ 16),
   BitVec.ofNat 8 (w.toNat / 2 ^ 8), BitVec.ofNat 8 w.toNat]

/-- The bytes of a 64-bit channel word, first byte in [63:56] (R174). -/
def word64Bytes (w : Word64) : List Byte :=
  (List.range 8).map (fun i => BitVec.ofNat 8 (w.toNat / 2 ^ (8 * (7 - i))))

/-- A number from bytes, most significant first. -/
def beNat (bs : List Byte) : Nat := bs.foldl (fun a b => a * 256 + b.toNat) 0

/-- A word from its first four bytes, missing bytes zero. -/
def beWord (bs : List Byte) : Word := w32 (beNat ((bs ++ [0, 0, 0, 0]).take 4))

/-- A 64-bit word from its first eight bytes, missing bytes zero (R174). -/
def beWord64 (bs : List Byte) : Word64 :=
  BitVec.ofNat 64 (beNat ((bs ++ [0, 0, 0, 0, 0, 0, 0, 0]).take 8))

/-- Split a list into pieces of n, over fuel. -/
def chunksAux {α : Type} (n : Nat) : Nat → List α → List (List α)
  | 0, _ => []
  | fuel + 1, xs => if xs.isEmpty then [] else xs.take n :: chunksAux n fuel (xs.drop n)

/-- Split a list into pieces of n (the last may be shorter). -/
def chunks {α : Type} (n : Nat) (xs : List α) : List (List α) := chunksAux n xs.length xs

/-- Words from bytes, most significant byte first. -/
def toWords (bs : List Byte) : List Word := (chunks 4 bs).map beWord

/-- 64-bit words from bytes, the last padded with zeros (R174). -/
def toWords64 (bs : List Byte) : List Word64 := (chunks 8 bs).map beWord64

/-- The n low bytes of a number, most significant first. -/
def natBytes (n v : Nat) : List Byte :=
  (List.range n).map (fun i => BitVec.ofNat 8 (v / 256 ^ (n - 1 - i)))

/-- Division rounding up. -/
def cdiv (a b : Nat) : Nat := (a + b - 1) / b

/-- Count of set bits of the first n bits. -/
def popCount (n : Nat) (f : Nat → Bool) : Nat := ((List.range n).filter f).length

/-- A word whose bit i is f i, for i below n. -/
def wordOfBits (n : Nat) (f : Nat → Bool) : Word :=
  (List.range n).foldl (fun w i => w ||| flag i (f i)) 0

/-- The least index below n that satisfies a test. -/
def firstBelow (n : Nat) (f : Nat → Bool) : Option Nat := (List.range n).find? f

/-- A saturating count in a 32-bit word (R83). -/
def satAdd (w : Word) (n : Nat) : Word :=
  if 2 ^ 32 - 1 ≤ w.toNat + n then BitVec.allOnes 32 else w32 (w.toNat + n)

end Sys2Proof
end

