-- ==== Sys2Proof/Syntax.lean ====
section
/-!
DEFINITION. The commands of the block: one constructor per row of the opcode table. An operand `dt` is the number of
timebase clocks that pass since the last step before the event happens; `h` is the header of the packet a command
runs for; `who` is the accessor of a register-level row; `e` the engine that issues an instruction.
-/
namespace Sys2Proof

/-- The commands (spec/opcode_table.json). -/
inductive Instr where
  /-- ADD writes ra + rb modulo 2^32 to rd. (R351) -/
  | add (e rd ra rb : Nat)
  /-- SUB writes ra − rb modulo 2^32 to rd. (R351) -/
  | sub (e rd ra rb : Nat)
  /-- ADDS writes the signed saturating sum to rd. (R351) -/
  | adds (e rd ra rb : Nat)
  /-- SUBS writes the signed saturating difference to rd. (R351) -/
  | subs (e rd ra rb : Nat)
  /-- ADDI writes ra plus the sign-extended immediate to rd. (R351) -/
  | addi (e rd ra : Nat) (imm : BitVec 16)
  /-- SLTI writes 1 to rd when ra is below the signed immediate. (R351) -/
  | slti (e rd ra : Nat) (imm : BitVec 16)
  /-- SLT writes the signed comparison of ra and rb to rd. (R351) -/
  | slt (e rd ra rb : Nat)
  /-- SLTU writes the unsigned comparison of ra and rb to rd. (R351) -/
  | sltu (e rd ra rb : Nat)
  /-- MIN writes the signed minimum of ra and rb to rd. (R351) -/
  | min (e rd ra rb : Nat)
  /-- MAX writes the signed maximum of ra and rb to rd. (R351) -/
  | max (e rd ra rb : Nat)
  /-- AND writes the bitwise AND of ra and rb to rd. (R351) -/
  | and (e rd ra rb : Nat)
  /-- OR writes the bitwise OR of ra and rb to rd. (R351) -/
  | or (e rd ra rb : Nat)
  /-- XOR writes the bitwise XOR of ra and rb to rd. (R351) -/
  | xor (e rd ra rb : Nat)
  /-- ANDI ANDs ra with the zero-extended immediate. (R351) -/
  | andi (e rd ra : Nat) (imm : BitVec 16)
  /-- ORI ORs ra with the zero-extended immediate. (R351) -/
  | ori (e rd ra : Nat) (imm : BitVec 16)
  /-- XORI XORs ra with the zero-extended immediate. (R351) -/
  | xori (e rd ra : Nat) (imm : BitVec 16)
  /-- LUI writes the immediate shifted left by 16 to rd. (R351) -/
  | lui (e rd : Nat) (imm : BitVec 16)
  /-- SLL shifts ra left by rb[4:0]. (R351) -/
  | sll (e rd ra rb : Nat)
  /-- SRL shifts ra right logically by rb[4:0]. (R351) -/
  | srl (e rd ra rb : Nat)
  /-- SRA shifts ra right arithmetically by rb[4:0]. (R351) -/
  | sra (e rd ra rb : Nat)
  /-- SLLI shifts ra left by the rb field. (R351) -/
  | slli (e rd ra rb : Nat)
  /-- SRLI shifts ra right logically by the rb field. (R351) -/
  | srli (e rd ra rb : Nat)
  /-- SRAI shifts ra right arithmetically by the rb field. (R351) -/
  | srai (e rd ra rb : Nat)
  /-- CLS writes the count of leading bits equal to bit 31, less one, to rd. (R359) -/
  | cls (e rd ra : Nat)
  /-- BEXP writes the minimum of rd and the CLS of ra to rd. (R359) -/
  | bexp (e rd ra : Nat)
  /-- MUL16 writes the signed product of the low halves of ra and rb to rd. (R351) -/
  | mul16 (e rd ra rb : Nat)
  /-- MUL16U writes the unsigned product of the low halves of ra and rb to rd. (R351) -/
  | mul16u (e rd ra rb : Nat)
  /-- LDB loads a sign-extended byte from the scratchpad. (R349) -/
  | ldb (e rd ra : Nat) (imm : BitVec 16)
  /-- LDBU loads a zero-extended byte from the scratchpad. (R349) -/
  | ldbu (e rd ra : Nat) (imm : BitVec 16)
  /-- LDH loads a sign-extended halfword from the scratchpad. (R349) -/
  | ldh (e rd ra : Nat) (imm : BitVec 16)
  /-- LDHU loads a zero-extended halfword from the scratchpad. (R349) -/
  | ldhu (e rd ra : Nat) (imm : BitVec 16)
  /-- LDW loads a word from the scratchpad or, through the parameter window, by a Ridgeway READ that stalls for its response. (R350) -/
  | ldw (e rd ra : Nat) (imm : BitVec 16)
  /-- LDD loads 8 bytes into an even register pair. (R349) -/
  | ldd (e rd ra : Nat) (imm : BitVec 16)
  /-- STB stores the low byte of rd. (R349) -/
  | stb (e rd ra : Nat) (imm : BitVec 16)
  /-- STH stores the low halfword of rd. (R349) -/
  | sth (e rd ra : Nat) (imm : BitVec 16)
  /-- STW stores a word locally or sends a POSTED write through the window without waiting. (R350) -/
  | stw (e rd ra : Nat) (imm : BitVec 16)
  /-- STD stores the register pair rd, rd+1 as 8 bytes. (R349) -/
  | std (e rd ra : Nat) (imm : BitVec 16)
  /-- STWS sends a non-posted WRITE and stalls until DONE. (R350) -/
  | stws (e rd ra : Nat) (imm : BitVec 16)
  /-- LL loads a word and sets the reservation on its 8-byte granule. (R365) -/
  | ll (e rd ra : Nat) (imm : BitVec 16)
  /-- SC stores only while the reservation covers its address and returns success in rd. (R365) -/
  | sc (e rd ra : Nat) (imm : BitVec 16)
  /-- BEQ branches when ra equals rb. (R351) -/
  | beq (e ra rb : Nat) (off : BitVec 16)
  /-- BNE branches when ra differs from rb. (R351) -/
  | bne (e ra rb : Nat) (off : BitVec 16)
  /-- BLT branches when ra is signed-less than rb. (R351) -/
  | blt (e ra rb : Nat) (off : BitVec 16)
  /-- BGE branches when ra is signed-greater or equal to rb. (R351) -/
  | bge (e ra rb : Nat) (off : BitVec 16)
  /-- BLTU branches when ra is unsigned-less than rb. (R351) -/
  | bltu (e ra rb : Nat) (off : BitVec 16)
  /-- BGEU branches when ra is unsigned-greater or equal to rb. (R351) -/
  | bgeu (e ra rb : Nat) (off : BitVec 16)
  /-- J jumps by a signed word offset. (R351) -/
  | j (e : Nat) (off : BitVec 26)
  /-- JAL jumps and sets g31 to PC + 4. (R351) -/
  | jal (e : Nat) (off : BitVec 26)
  /-- JR jumps to the address in ra. (R351) -/
  | jr (e ra : Nat)
  /-- JALR jumps to ra and sets rd to PC + 4. (R351) -/
  | jalr (e rd ra : Nat)
  /-- MAC adds the product P to the accumulator, with overflow and saturation rules. (R357) -/
  | mac (e a x y su : Nat)
  /-- MSU subtracts the product P from the accumulator. (R357) -/
  | msu (e a x y su : Nat)
  /-- MPY sets the accumulator to the product P. (R357) -/
  | mpy (e a x y su : Nat)
  /-- FTAP multiplies a sample and coefficient into the accumulator, moves the sample and steps both address generators. (R361) -/
  | ftap (e a su : Nat)
  /-- FTAPN performs a filter tap without the delay-line move. (R361) -/
  | ftapn (e a su : Nat)
  /-- ACLR clears the accumulator. (R351) -/
  | aclr (e a : Nat)
  /-- AFROM sets the accumulator to the sign-extended X register. (R351) -/
  | afrom (e a x : Nat)
  /-- AADD adds the other accumulator into the named one. (R357) -/
  | aadd (e a : Nat)
  /-- ASH shifts the accumulator by SH with the overflow rule. (R357) -/
  | ash (e a : Nat) (sh : BitVec 5)
  /-- AEXP writes the normalising shift of the accumulator to X. (R359) -/
  | aexp (e a x : Nat)
  /-- AMOV extracts a shifted, clamped and optionally rounded accumulator value into X. (R358) -/
  | amov (e a x : Nat) (sh : BitVec 5) (hi : Bool)
  /-- RPT pushes a zero-overhead repeat level over the following body. (R363) -/
  | rpt (e : Nat) (useReg : Bool) (len : Nat) (count : Nat)
  /-- MFC reads a control register into rd, latching the time values when register 40 is read. (R348) -/
  | mfc (e rd n : Nat)
  /-- MTC writes ra to a control register, faulting on read-only or unlisted numbers. (R348) -/
  | mtc (e ra n : Nat)
  /-- RETI reverses the interrupt exchange, restores STATUS and continues at EPC. (R368) -/
  | reti (e : Nat)
  /-- TEXIT ends the thread and switches to the staged bank or enters IDLE. (R366) -/
  | texit (e : Nat)
  /-- YIELD hands the thread back to be written back and posted ready again and switches banks. (R366) -/
  | yield (e : Nat)
  /-- POST presents a post of a thread to the dispatcher and stalls for acceptance or refusal. (R367) -/
  | post (e rd ra : Nat)
  /-- WDK reloads the engine watchdog. (R371) -/
  | wdk (e : Nat)
  /-- PUB clears VALID or publishes RESD0 to RESD5 as a new engine result. (R373) -/
  | pub (e flags : Nat)
  /-- FENCE stalls until every posted write of the engine has its PACK. (R350) -/
  | fence (e : Nat)
  /-- BRK enters MONITOR in a session, or faults with cause 0x9 without one. (R533) -/
  | brk (e : Nat)
  /-- At the rise of CPORT_CS_N after a WRITE_PACKET transaction, the Gatehouse judges the packet through its ordered checks and either discards it or accepts it and runs or replays the command. (R50) -/
  | writePacket (bytes : List Byte) (early : Bool)
  /-- A READ_REPLY transaction returns the held reply from word 0, or a PENDING reply while a command runs. (R42) -/
  | readReply (early : Bool) (words : Nat)
  /-- A READ_STATUS transaction returns GH_PORT_STAT, GH_REPLY_INFO and their CRC, and releases CPORT_ALERT_N. (R43) -/
  | readStatus (early : Bool)
  /-- A transaction with an undefined first byte is ignored to the rise of CPORT_CS_N, and LAST_STATUS and LAST_REASON become BADFRAME and 0x01. (R44) -/
  | badTransactionCode (code : Byte)
  /-- When the device watchdog count runs out, WDOG_EXP is set, WDOG_N falls, a log entry is made and the watchdog reloads. (R63) -/
  | watchdogExpiry (dt : Nat)
  /-- PING returns the parameter words it was given. (R65) -/
  | ping (h : Hdr) (words : List Word)
  /-- IDENTIFY returns the identity, image, overlay counter and mode registers at one instant. (R96) -/
  | identify (h : Hdr)
  /-- STATUS returns DEV_MODE, DEV_GSTAT, DEV_LOG_UNACK and GH_PORT_STAT at one instant. (R96) -/
  | status (h : Hdr)
  /-- PARAM_READ reads one aligned register, applying any RC side effect, after the address, target and auth checks. (R76) -/
  | paramRead (h : Hdr) (addr : Word)
  /-- PARAM_WRITE writes one register, each field according to its access code, after the address, target and auth checks. (R81) -/
  | paramWrite (h : Hdr) (addr value : Word)
  /-- PARAM_MODIFY performs one locked read-modify-write of a register, with a peek for the read, and returns the old value. (R66) -/
  | paramModify (h : Hdr) (addr mask value : Word)
  /-- PARAM_READ_BLOCK reads consecutive registers after checking every address first. (R67) -/
  | paramReadBlock (h : Hdr) (addr count : Word)
  /-- PARAM_WRITE_BLOCK writes consecutive registers and ends with FAULT and a count at a bus error or failed check. (R67) -/
  | paramWriteBlock (h : Hdr) (addr : Word) (values : List Word)
  /-- IMAGE_BEGIN opens a base or overlay image load from CPORT or flash, clearing the base configuration for kind 0. (R450) -/
  | imageBegin (h : Hdr) (kind ovl len src flash : Word)
  /-- IMAGE_DATA appends data words to the open CPORT load at the expected byte offset. (R451) -/
  | imageData (h : Hdr) (offset : Word) (words : List Word)
  /-- IMAGE_COMMIT checks the loaded image in order and commits a base image or places an overlay in its slot. (R452) -/
  | imageCommit (h : Hdr)
  /-- OVERLAY_STAGE checks an overlay and starts writing it into the shadow planes of what it owns. (R470) -/
  | overlayStage (h : Hdr) (ovl : Word)
  /-- OVERLAY_APPLY binds a staged overlay switch to a reserved PLANE Cairn. (R473) -/
  | overlayApply (h : Hdr) (ovl cairn : Word)
  /-- MODE_ENTER binds the switch to a mode overlay to a reserved PLANE Cairn, setting SWITCH_PEND and NEXT. (R473) -/
  | modeEnter (h : Hdr) (mode cairn : Word)
  /-- START fixes a release instant after which configured terraces leave reset and the device enters STAGING. (R460) -/
  | start (h : Hdr)
  /-- CHANNEL_ENABLE sets MAX_STEP and GROUP and then sets CH_CTRL.EN under the consistency check. (R202) -/
  | channelEnable (h : Hdr) (ch step group : Word)
  /-- CHANNEL_RETIRE retires a channel with cause 0x6 and switches in the named eligible spare, if any. (R189) -/
  | channelRetire (h : Hdr) (ch spare : Word)
  /-- CHANNEL_RESTORE returns a retired channel with lock and a passing scan to RUN, sends RESYNC and assigns its role. (R191) -/
  | channelRestore (h : Hdr) (ch : Word)
  /-- LANE_SLIP moves the receive word boundary of a manually aligned lane by 1 to 63 UI. (R161) -/
  | laneSlip (h : Hdr) (lane slip dir : Word)
  /-- EYE_SCAN checks its grid and starts an in-service eye scan of a lane, replying with the result block address. (R157) -/
  | eyeScan (h : Hdr) (lane phase volt dwell : Word)
  /-- LOOPBACK puts a lane into a loop kind or returns it to the state held before LOOP. (R154) -/
  | loopback (h : Hdr) (lane kind : Word)
  /-- LADDER_RESTART sends a lane back to ANNOUNCE at a starting step, or to SWITCH at FIX_STEP for a fixed lane, or only sets START_STEP. (R151) -/
  | ladderRestart (h : Hdr) (ch step : Word)
  /-- CAIRN_SET writes a Cairn entry into a named or the lowest free slot after its checks. (R126) -/
  | cairnSet (h : Hdr) (index sf fp act rep : Word)
  /-- CAIRN_CANCEL frees an uncommitted Cairn, disarms it and withdraws a bound switch. (R128) -/
  | cairnCancel (h : Hdr) (index : Word)
  /-- TIME_ADDEND loads a new Device Time addend within 500 ppm of 2.0 ns. (R116) -/
  | timeAddend (h : Hdr) (hi lo : Word)
  /-- TIME_STEP adds a signed offset to Device Time in one timebase clock. (R117) -/
  | timeStep (h : Hdr) (w2 w1 w0 : Word)
  /-- ENGINE_LOAD writes words into a stopped engine's scratchpad and clears its reservation. (R345) -/
  | engineLoad (h : Hdr) (engine offset : Word) (words : List Word)
  /-- ENGINE_START puts a stopped engine into RUN at a start address with a cleared context. (R346) -/
  | engineStart (h : Hdr) (engine addr : Word)
  /-- ENGINE_STOP stops an engine at the next instruction boundary and returns its threads to the dispatcher. (R347) -/
  | engineStop (h : Hdr) (engine : Word)
  /-- BIST_RUN checks and starts the selected logic BIST sets in ascending order. (R515) -/
  | bistRun (h : Hdr) (mask : Word)
  /-- MARCH_RUN checks and starts a destroying or preserving March C- run of a memory kind. (R519) -/
  | marchRun (h : Hdr) (select form : Word)
  /-- CAPTURE arms a capture snapshot now or binds it to a reserved CAPTURE Cairn. (R526) -/
  | capture (h : Hdr) (trigger cairn : Word)
  /-- SIGNATURE_READ returns the signature of a finished BIST set or the last march run. (R525) -/
  | signatureRead (h : Hdr) (select : Word)
  /-- DOMAIN_POWER switches a power domain on, or starts the drain-and-fence handshake that switches it off. (R554) -/
  | domainPower (h : Hdr) (on : Word)
  /-- GATE_SET opens or closes a clock gate of the gate tree after its checks. (R337) -/
  | gateSet (h : Hdr) (gate opened : Word)
  /-- LOG_READ returns consecutive log entries by sequence number without consuming them. (R505) -/
  | logRead (h : Hdr) (first count : Word)
  /-- LOG_ACK frees every held log entry at or before the given sequence number. (R506) -/
  | logAck (h : Hdr) (last : Word)
  /-- PAGE_RETIRE adds a DRAM channel page to the retirement list, taking effect at once or when its spilled data is fetched. (R415) -/
  | pageRetire (h : Hdr) (ch hi lo : Word)
  /-- KEY_LOAD unwraps a key under the transport key into a slot and returns its key check value. (R420) -/
  | keyLoad (h : Hdr) (index : Word) (wrapped : List Word)
  /-- KEY_ZERO with one key index empties that slot unless it is in use. (R423) -/
  | keyZero (h : Hdr) (index : Word)
  /-- KEY_ZERO of all slots overwrites every slot and enters INTEGRITY STOP if any slot was in use. (R423) -/
  | keyZeroAll (h : Hdr)
  /-- DEBUG_AUTH phase 0 opens a challenge for a higher auth level and returns it. (R511) -/
  | debugAuthChallenge (h : Hdr) (level : Word)
  /-- DEBUG_AUTH phase 1 checks the HMAC response and raises the auth level or closes the challenge and starts the lockout. (R512) -/
  | debugAuthResponse (h : Hdr) (mac : List Word)
  /-- DEBUG_AUTH phase 2 lowers the auth level, with Belvedere effects under R514. (R511) -/
  | debugAuthLower (h : Hdr) (level : Word)
  /-- WATCHDOG_KICK reloads the device watchdog with its full period. (R63) -/
  | watchdogKick (h : Hdr)
  /-- RESET type 0 empties the replay cache, sets the reset reply, clears BAD_FRAMES and returns the auth level to 0. (R69) -/
  | resetCommandPort (h : Hdr)
  /-- RESET type 1 resets the device as RESET_N does, 10 µs after acceptance. (R69) -/
  | resetDevice (h : Hdr) (bootsel : Nat)
  /-- A write to a register with no behaviour of its own applies each field by its access code, with W1C and W1S collisions settled by R82. (R81) -/
  | registerWrite (who : Accessor) (addr value : Word)
  /-- A read of an RC counter returns its value and applies its clearing side effect. (R84) -/
  | rcRead (who : Accessor) (addr : Word)
  /-- A read of the lowest word of a latched group copies all its words in one clock. (R86) -/
  | latchedGroupRead (who : Accessor) (addr : Word)
  /-- A non-zero write to GH_WDOG_PERIOD starts and reloads the device watchdog, and a later write of 0 is ignored. (R62) -/
  | ghWdogPeriodWrite (who : Accessor) (value : Word)
  /-- Setting TB_CTRL.EN checks the system PLL and crystal and starts Frame Position and Device Time from zero. (R119) -/
  | timebaseEnable (who : Accessor) (value : Word)
  /-- Clearing TB_CTRL.EN stops and zeroes both time values, frees every Cairn and forgets the frame loop history. (R102) -/
  | timebaseDisable (who : Accessor) (value : Word)
  /-- A write that changes TB_CTRL.REF_SEL selects a frame reference input, none, or automatic choice. (R108) -/
  | referenceSelection (who : Accessor) (value : Word)
  /-- Setting TB_CTRL.SF_ARM arms a load of TB_SF_LOAD at the next superframe marker of the input in use. (R118) -/
  | sfArm (who : Accessor) (value : Word)
  /-- Setting CK_Xn_CFG.EN runs its check and starts the monitor windows of that input. (R324) -/
  | crystalInputEnable (who : Accessor) (x : Nat) (value : Word)
  /-- Clearing CK_Xn_CFG.EN stops the input unless an enabled PLL names it. (R324) -/
  | crystalInputDisable (who : Accessor) (x : Nat) (value : Word)
  /-- Setting CK_PLL_CTRL.EN runs the PLL consistency tests and starts the PLL. (R330) -/
  | pllEnable (who : Accessor) (p : Nat) (value : Word)
  /-- Clearing CK_PLL_CTRL.EN stops the PLL outputs unless a consumer still uses them. (R331) -/
  | pllDisable (who : Accessor) (p : Nat) (value : Word)
  /-- A write to CK_PLL_SSC of an enabled PLL takes effect at the next lowest point of the modulation. (R335) -/
  | sscUpdate (who : Accessor) (p : Nat) (value : Word)
  /-- A write that sets CH_CTRL.EN runs the channel and lane check with the MAX_STEP and GROUP held and starts the ladder. (R202) -/
  | chCtrlEnable (who : Accessor) (c : Nat) (value : Word)
  /-- Clearing CH_CTRL.EN empties launch queues and retry buffer, counts them lost, clears RETIRED and sends the lane to OFF. (R201) -/
  | channelDisable (who : Accessor) (c : Nat) (value : Word)
  /-- A write through a launch queue window reserves a frame on its LEN word or appends payload, making the frame eligible with its last write. (R199) -/
  | chLqWinWrite (who : Accessor) (c q : Nat) (value : Word)
  /-- User logic places a frame into a launch queue through its terrace's channel port. (R198) -/
  | launchPortFrame (t c q : Nat) (bytes : List Byte)
  /-- A read of CIS_RD_TAG removes the head word of a Cistern and latches its data into CIS_RD_D0 to D7. (R210) -/
  | cisRdTagRead (who : Accessor) (i : Nat)
  /-- A write to CIS_WR_DATA appends 4 bytes to a general Cistern fed by its write window. (R210) -/
  | cisWrDataWrite (who : Accessor) (i : Nat) (value : Word)
  /-- A write to CIS_WR_END closes the frame being written through the window. (R210) -/
  | cisWrEndWrite (who : Accessor) (i : Nat) (value : Word)
  /-- Setting CIS_CMD.DROP discards the rest of the head frame up to its EOF. (R216) -/
  | drop (who : Accessor) (i : Nat)
  /-- Setting CIS_CMD.FLUSH starts discarding every line and open frame of a Cistern. (R217) -/
  | flush (who : Accessor) (i : Nat)
  /-- Within 32 clocks of the slower side, the flush completes, the Cistern is empty and FLUSH clears. (R217) -/
  | flushDone (i dt : Nat)
  /-- Setting CIS_CTRL.EN of a general Cistern runs the Cistern consistency tests. (R219) -/
  | cisternEnable (who : Accessor) (i : Nat) (value : Word)
  /-- Setting QD_CFG.EN runs the queue consistency tests and enables the Orchard queue. (R236) -/
  | queueEnable (who : Accessor) (q : Nat) (value : Word)
  /-- Clearing QD_CFG.EN discards every frame of the queue, frees its cells and pages and releases its charges. (R237) -/
  | queueDisable (who : Accessor) (q : Nat) (value : Word)
  /-- Setting ORC_CTRL.EN runs the spill and key tests and enables the ridge Orchard. (R244) -/
  | orchardEnable (who : Accessor) (r : Nat) (value : Word)
  /-- Clearing ORC_CTRL.EN disables every queue of the ridge in one clock and frees every spill page. (R254) -/
  | orchardDisable (who : Accessor) (r : Nat) (value : Word)
  /-- A write to ORC_EQ_HDR takes the admission decision and opens a frame or ends in a bus error with a CAUSE. (R247) -/
  | orcEqHdrWrite (who : Accessor) (r w : Nat) (value : Word)
  /-- A write to ORC_EQ_DATA appends 4 bytes to the open frame and makes it visible with its last write. (R247) -/
  | orcEqDataWrite (who : Accessor) (r w : Nat) (value : Word)
  /-- A read of ORC_DQ_TAG consumes up to 4 bytes from the selected queue and latches them into ORC_DQ_DATA. (R248) -/
  | orcDqTagRead (who : Accessor) (r w : Nat)
  /-- Setting TH_CFG.EN runs the thread consistency tests and makes the thread IDLE. (R376) -/
  | threadEnable (who : Accessor) (t : Nat) (value : Word)
  /-- Clearing TH_CFG.EN removes or unstages the thread, or makes a running thread ENDING. (R377) -/
  | threadDisable (who : Accessor) (t : Nat) (value : Word)
  /-- Setting DSP_CTRL.EN enables the dispatcher. (R393) -/
  | dispatcherEnable (who : Accessor) (value : Word)
  /-- Clearing DSP_CTRL.EN, allowed only with every engine stopped, resets every enabled thread to IDLE and frees every flow. (R393) -/
  | dispatcherDisable (who : Accessor) (value : Word)
  /-- A write to DSP_POST presents a post of the named thread to the dispatcher intake. (R381) -/
  | dspPostWrite (who : Accessor) (value : Word)
  /-- Setting DSP_SNAP_CTRL.TAKE copies every dispatcher counter into the snapshot block, optionally restarting them. (R395) -/
  | snapshotTake (who : Accessor) (value : Word)
  /-- A write to PV_DSP_CFG.ACCEPT opens or closes engines to staging, unstaging staged threads of closed engines. (R391) -/
  | acceptWrite (who : Accessor) (p : Nat) (value : Word)
  /-- A write of 1 to ENG_IRQ_SET raises an edge on the named engine interrupt inputs. (R368) -/
  | engIrqSetWrite (who : Accessor) (e : Nat) (value : Word)
  /-- Setting DR_CTRL.EN runs the channel tests and powers up and initialises the devices. (R407) -/
  | dramChannelEnable (who : Accessor) (d : Nat) (value : Word)
  /-- Clearing DR_CTRL.EN loses contents, training, retirement list and counters of the channel. (R414) -/
  | dramChannelDisable (who : Accessor) (d : Nat) (value : Word)
  /-- Setting DR_TRAIN_CTRL.START starts training and fill of a DRAM channel. (R408) -/
  | trainingStart (who : Accessor) (d : Nat)
  /-- Setting DR_CMP_CTRL.GO runs a training helper pattern compare and fills DR_CMP_RES. (R410) -/
  | compareRun (who : Accessor) (d : Nat) (value : Word) (errs : List Word)
  /-- A window read command reads one DRAM line as stored into DR_WIN_RES without correction or tag check. (R418) -/
  | drWinRead (who : Accessor) (d : Nat) (got : Upset)
  /-- A window write command writes DR_WIN_D0 to D15 to one line with a new code and unencrypted TAG. (R418) -/
  | drWinWrite (who : Accessor) (d : Nat)
  /-- Setting MON_CTRL.EN runs the monitor check and starts scan rounds. (R548) -/
  | monitorEnable (who : Accessor) (value : Word)
  /-- Setting BLV_TRC_CTRL.EN runs the trace check, clears the trace status and starts trace capture. (R538) -/
  | traceEnable (who : Accessor) (value : Word)
  /-- Setting BLV_PEEK_CTRL.GO with CONSUME 0 reads an address through the shadow path with no side effect. (R530) -/
  | peek (who : Accessor)
  /-- Setting BLV_PEEK_CTRL.GO with CONSUME 1 makes a normal read that applies RC side effects. (R531) -/
  | consumingRead (who : Accessor)
  /-- A halt request enters an attached engine in RUN or IDLE into MONITOR. (R532) -/
  | blvHalt (who : Accessor) (w : Nat) (value : Word)
  /-- A step request runs one instruction of an engine in MONITOR and re-enters MONITOR. (R535) -/
  | blvStep (who : Accessor) (w : Nat) (value : Word)
  /-- A resume request returns an engine from MONITOR to RUN or IDLE. (R532) -/
  | blvResume (who : Accessor) (w : Nat) (value : Word)
  /-- A write to BLV_ATTACH attaches or detaches engine sessions, resuming a detached engine in MONITOR. (R532) -/
  | blvAttachWrite (who : Accessor) (w : Nat) (value : Word)
  /-- A write to BLV_STIM drives the stimulus hard port of every configured terrace. (R537) -/
  | blvStimWrite (who : Accessor) (value : Word)
  /-- A write to BF_CMD starts a raw flash command. (R462) -/
  | bfCmdWrite (who : Accessor) (value : Word)
  /-- A raw flash command completes and sets VALID in BF_CMD_RES. (R462) -/
  | rawCommandEnd (data : List Byte) (dt : Nat)
  /-- A write to LOG_INJECT stores an event 0x60 test entry. (R508) -/
  | logInjectWrite (who : Accessor) (value : Word)
  /-- Writing RW_STAT_CTRL.CLR clears the selected initiator port's statistics. (R275) -/
  | rwStatClear (who : Accessor) (r : Nat)
  /-- A read of word 0 of a stamp source's record latches the record and removes the oldest from its queue. (R120) -/
  | stampRecordRead (who : Accessor) (src : Nat)
  /-- A read of CN_EVENT latches and removes the oldest Cairn event record. (R137) -/
  | cnEventRead (who : Accessor)
  /-- A pulse on a frame reference input is classified by width and feeds qualification, TB_MARK_ERR and the frame loop. (R106) -/
  | framePulse (inp width dt : Nat)
  /-- An expected frame edge window ends without an edge, counting towards loss of qualification. (R107) -/
  | edgeAbsent (inp dt : Nat)
  /-- The pending autonomous switch to overlay 4 acts at the first frame start at least 250 µs after the declaration. (R482) -/
  | autonomousSwitch (dt : Nat)
  /-- An enabled edge on a stamp pin latches a stamp record and may raise an engine interrupt. (R121) -/
  | stampPinEdge (p : Nat) (edge : PinEdge) (dt : Nat)
  /-- The scheduler arms a Cairn at its targets 2 ms before its position or when a target place frees. (R127) -/
  | cairnArm (k dt : Nat)
  /-- A Cairn is committed 100 µs before its position, missing if not armed at every target or still unbound. (R127) -/
  | cairnCommit (k dt : Nat)
  /-- Each target acts on the first edge of its clock at which its local Frame Position reaches the Cairn's position. (R129) -/
  | cairnFire (k dt : Nat)
  /-- A received ladder block is judged and counted towards the lane's ladder state transitions. (R146) -/
  | ladderBlockReceived (l : Nat) (cap : Word) (check : Byte) (codeErr : Bool) (dt : Nat)
  /-- A ladder state timeout expires and sends the lane to FALLBACK or ANNOUNCE at step 0, or restarts a fixed lane. (R146) -/
  | ladderTimeout (l dt : Nat)
  /-- ANNOUNCE lasting 100 ms without a partner sets NO_PARTNER. (R146) -/
  | noPartner (l dt : Nat)
  /-- A 1 ms VERIFY window ends without error, letting the lane send READY. (R146) -/
  | verifyWindowClean (l dt : Nat)
  /-- A lane transmit synthesiser locks at its new rung, ending SWITCH. (R141) -/
  | synthLock (l dt : Nat)
  /-- Receiver clock recovery and adaptation settle, letting a fixed lane enter RUN. (R150) -/
  | adaptationSettled (l : Nat) (vals : List Word) (dt : Nat)
  /-- A lane in RUN loses clock recovery or synthesiser lock and reports a PMA lock failure to its channel. (R148) -/
  | laneLockLoss (l : Nat) (synth : Bool) (dt : Nat)
  /-- An eye scan finishes or ends in error, writing its result block with width, height and PASS. (R160) -/
  | eyeScanEnd (q : Nat) (err : Bool) (counts : List Nat) (dt : Nat)
  /-- The alignment checker ends a window of 1,024 words and sets VALID with MATCHES. (R162) -/
  | alignWindowEnd (l : Nat) (words : List Nat) (dt : Nat)
  /-- A scramble-and-stuff sync word is received and counted towards gaining or losing block sync. (R172) -/
  | syncWord (c : Nat) (w : Word64) (before : List Bool) (dt : Nat)
  /-- A received DATA frame is checked and accepted in SEQ order into CIn or discarded with a NAK. (R178) -/
  | dataFrameReceived (c : Nat) (bits : List Bool) (dt : Nat)
  /-- On the raw coding, each received lane word enters CIn or is counted as an overflow. (R168) -/
  | rawWordReceived (c : Nat) (w : Word64) (dt : Nat)
  /-- A received ACK frees acknowledged frames from the retry buffer. (R180) -/
  | ackReceived (c : Nat) (bits : List Bool) (dt : Nat)
  /-- A received NAK starts a retransmission round of every outstanding frame after ACKSEQ. (R180) -/
  | nakReceived (c : Nat) (bits : List Bool) (dt : Nat)
  /-- A received MARK updates the group deskew, declaring a permanent fault above 64 ns. (R196) -/
  | markReceived (c : Nat) (bits : List Bool) (dt : Nat)
  /-- A received RESYNC resets the receive SEQ and ACKSEQ and advances the receive EPOCH. (R191) -/
  | resyncReceived (c : Nat) (bits : List Bool) (dt : Nat)
  /-- TMO passes without ACKSEQ advancing while frames are outstanding, starting a retransmission round. (R180) -/
  | retryTimeout (c dt : Nat)
  /-- The 2 µs or ACK_INT interval expires and the receiver sends an ACK. (R178) -/
  | ackTimer (c dt : Nat)
  /-- A waiting retransmitted or control frame is sent in the next gap before an armed LAUNCH that it fits. (R181) -/
  | retransmissionGapSend (c dt : Nat)
  /-- At the local phase MARK_PH, a group channel sends a MARK or skips it. (R195) -/
  | markSend (c dt : Nat)
  /-- 100 µs of silence in RUN with SILENT_EN set is a permanent fault with cause 0x3. (R183) -/
  | silenceTimeout (c dt : Nat)
  /-- The spare sends SUBST and takes over the retired channel's launch queues, role and index. (R186) -/
  | spareSwitchIn (c dt : Nat)
  /-- User logic writes a word into a general Cistern through its fabric write port. (R207) -/
  | cisternFabricWrite (i : Nat) (bytes : List Byte) (eof : Bool) (dt : Nat)
  /-- User logic takes a visible word from a Cistern through its fabric read port. (R215) -/
  | cisternFabricRead (i dt : Nat)
  /-- An engine or fabric read of CIS_RD_TAG held for STALL × 16 ns returns VALID 0. (R215) -/
  | cisternReadStallExpiry (i dt : Nat)
  /-- The two copies of a Cistern pointer disagree and the Cistern starts a forced reset. (R218) -/
  | pointerMismatch (i : Nat) (read : Bool) (dt : Nat)
  /-- A forced Cistern reset completes with both pointers 0 and the Cistern runs again. (R218) -/
  | forcedResetEnd (i dt : Nat)
  /-- A frame's SOF at an Orchard source is admitted against the counter tree and allocated cells, or refused. (R230) -/
  | frameAdmission (src : OrcSource) (dt : Nat)
  /-- A held source retries its refused admission decision each clock. (R234) -/
  | heldAdmissionRetry (src : Nat) (dt : Nat)
  /-- A terrace Orchard port reads words from a pull queue, owning it from SOF to EOF. (R224) -/
  | orchardDequeue (t q dt : Nat)
  /-- A terrace pressure port asks for a queue's XOFF bit and receives it two fabric clocks later. (R233) -/
  | pressureLookup (t q dt : Nat)
  /-- The head frame of a launch-bound queue moves into its launch queue when there is room. (R225) -/
  | orchardLaunchMove (q dt : Nat)
  /-- The pager writes a run of 16 queue cells as a page to DRAM and frees the cells. (R239) -/
  | pageSpill (r dt : Nat)
  /-- The pager fetches a queue's first DRAM page into 16 cells of its head segment. (R241) -/
  | pageFetch (r : Nat) (got : List Upset) (dt : Nat)
  /-- A double-bit error marks a counter node untrusted and starts fallback admission and an audit. (R250) -/
  | counterNodeDoubleError (n : TreeNode) (recoverable : Bool) (dt : Nat)
  /-- An audit writes the rebuilt node count and makes the node trusted again. (R251) -/
  | auditEnd (n : TreeNode) (dt : Nat)
  /-- An uncorrectable queue descriptor disables the queue, discards its frames and sweeps its cells and pages. (R253) -/
  | descriptorUncorrectable (q dt : Nat)
  /-- A Ridgeway request packet reaches its target port and is carried out, answered again or discarded by its SEQ. (R266) -/
  | requestAtTarget (m : RwMove) (dt : Nat)
  /-- A Ridgeway response reaches its initiator and completes the request it answers. (R265) -/
  | responseAtInitiator (p : RwPkt) (dt : Nat)
  /-- A HOLDING response restarts the initiator's timer for the held request. (R267) -/
  | holdingReceived (p : RwPkt) (dt : Nat)
  /-- An initiator's timer reaches TMO and unacknowledged packets are sent again, ending in a bus error after three rounds. (R267) -/
  | ridgewayTimeout (src dst dt : Nat)
  /-- An uncorrectable flit is replayed, and after four replays its packet is discarded at that hop. (R264) -/
  | flitUncorrectable (r m input : Nat) (p : RwPkt) (found : FlitCheck) (dt : Nat)
  /-- A router heartbeat is missed at the gateway, declaring the router dead after four. (R269) -/
  | heartbeatMissed (r m dt : Nat)
  /-- A router reports an uncorrectable error in its route table or buffer control and is declared dead. (R269) -/
  | routerErrorReport (r m dt : Nat)
  /-- Once no packet remains through the dead router, every live router switches to a table that avoids it and local ports resume. (R270) -/
  | routeTableSwitch (r m dt : Nat)
  /-- With nothing queued or outstanding at the fence, the acknowledge closes the gate and releases the power switch. (R272) -/
  | fenceAcknowledge (blk dt : Nat)
  /-- No fence acknowledge by 800 µs ends DOMAIN_POWER with FAULT 0x30, leaving the fence closed and power on. (R273) -/
  | fenceTimeout (blk port dt : Nat)
  /-- Two drivers drive a Spine in one clock, and every driving driver is turned off and flagged. (R288) -/
  | spineContention (r spine : Nat) (drivers : List Nat) (dt : Nat)
  /-- A block memory port reads a word, correcting single errors and raising CE or UE. (R301) -/
  | blockMemoryRead (t : Nat) (port : BramPort) (addr : Nat) (got : List Upset) (dt : Nat)
  /-- A block memory port writes a whole word with new check bits. (R300) -/
  | blockMemoryWrite (t : Nat) (port : BramPort) (addr : Nat) (data : List Word64) (meet : BramMeet) (dt : Nat)
  /-- User logic answers a fabric window request with ACK or ERR and the terrace responds over the Ridgeway. (R305) -/
  | windowAnswer (t : Nat) (ack : Bool) (data : Word) (dt : Nat)
  /-- No answer within TC_WIN_CFG.TMO ends a window request with ERR 0x30. (R305) -/
  | windowTimeout (t dt : Nat)
  /-- User logic changes the enable of a user-gated clock line, which stops or starts on the second source edge. (R342) -/
  | clockLineEnable (t line : Nat) (on : Bool) (dt : Nat)
  /-- A bay repair hold of at most 40 ns ends and the bay resumes from its held state. (R309) -/
  | repairHoldEnd (t dt : Nat)
  /-- A word clock with SLIP set moves a pin deserialiser's word boundary one bit later. (R316) -/
  | deserialiserSlip (p dt : Nat)
  /-- A bank's VIO leaves its window, setting VIO_BAD and logging the bank. (R321) -/
  | vioOutOfWindow (b meas dt : Nat)
  /-- Once VIO has been in window for 10 ms and VIO_BAD is cleared, pins return to their stage state. (R321) -/
  | vioRecovery (b meas dt : Nat)
  /-- A crystal monitor window ends and the input is judged stable or loses stability. (R324) -/
  | crystalWindowEnd (x count dt : Nat)
  /-- No edge for 1 µs on a stable crystal input declares it lost. (R325) -/
  | edgeLoss (x dt : Nat)
  /-- A frozen PLL that has pulled its frequency to a restored input clears FROZEN. (R333) -/
  | frozenClear (p dt : Nat)
  /-- A window of 2^28 XA cycles ends and CK_XAB_DIFF reports the XB offset. (R326) -/
  | xabDiffWindowEnd (edges : Nat) (dt : Nat)
  /-- A started or relocking PLL achieves lock and sets LOCK. (R330) -/
  | pllLock (p dt : Nat)
  /-- A PLL fault drops LOCK, counts LOSSES and logs it, with lane consequences under R140. (R334) -/
  | pllUnlock (p dt : Nat)
  /-- After a CPORT base commit, the system PLL starts once the SYSREF input is judged stable, or fails at 500 ms. (R456) -/
  | systemPllStart (dt : Nat)
  /-- At an instruction boundary, the engine takes the lowest pending enabled interrupt and enters its handler. (R368) -/
  | interruptEntry (e dt : Nat)
  /-- The engine watchdog runs out and the engine faults with cause 0x7. (R371) -/
  | engineWatchdogExpiry (e dt : Nat)
  /-- The dispatcher decides a waiting post by the thread's state, accepting, merging or refusing it. (R381) -/
  | postDecision (dt : Nat)
  /-- For a pavilion, the dispatcher stages the best eligible thread on the lowest open engine. (R385) -/
  | stagingDecision (p dt : Nat)
  /-- A yielded context finishes writing to its save area and the thread becomes eligible. (R387) -/
  | contextWritebackEnd (t dt : Nat)
  /-- A thread READY for AFF_WAIT × 64 ns becomes eligible on engines other than its preferred one. (R384) -/
  | affinityWaitExpiry (t dt : Nat)
  /-- The DRAM controller issues a per-bank refresh, at rank 1 once postponement reaches its limit. (R412) -/
  | refresh (d bank : Nat) (late : Bool) (dt : Nat)
  /-- Every 4 ms the controller reads rank temperatures and sets or clears HOT with the refresh rate. (R413) -/
  | temperatureRead (d t0 t1 : Nat) (hot : Bool) (dt : Nat)
  /-- Every 100 ms the controller reads WCK2DQ oscillators and moves delays by the drift. (R411) -/
  | oscillatorTracking (d : Nat) (drift : Int) (dt : Nat)
  /-- Device power-up, mode registers and ZQ calibration complete and INIT_DONE is set. (R407) -/
  | initDone (d dt : Nat)
  /-- Training and fill end, writing the result block and setting TRAINED or logging a failure. (R410) -/
  | trainingEnd (d fail rdEye wrEye : Nat) (delays : List Nat) (dt : Nat)
  /-- The DRAM patrol scrubber reads a usable line and writes back a correction. (R497) -/
  | dramPatrolRead (d line : Nat) (got : Upset) (dt : Nat)
  /-- An uncorrectable error in a key slot stops the device if in use, or empties and logs the slot. (R434) -/
  | keySlotUncorrectable (k dt : Nat)
  /-- RESET_N rises with all rails good, starting the device from BOOT. (R440) -/
  | powerGood (bootsel : Nat)
  /-- A low pulse on RESET_N of sufficient length resets the device and samples BOOTSEL on its rise. (R442) -/
  | resetN (lowNs bootsel dt : Nat)
  /-- VAUX or VCORE below threshold for over 1 µs holds the device in reset. (R441) -/
  | supplyUndervoltage (lowNs dt : Nat)
  /-- The fill of a domain's memories with zero data and valid codes completes. (R444) -/
  | memoryFillEnd (blk dt : Nat)
  /-- The Gatehouse becomes ready to accept packets after reset. (R445) -/
  | gatehouseReady (dt : Nat)
  /-- The Gatehouse boots the primary, then fallback, flash image by itself, starting clocks and committing it. (R455) -/
  | flashBoot (primary fallback : List Byte) (refStable : Bool) (dt : Nat)
  /-- A flash-sourced image load has read its last byte and BF_STAT.BUSY clears. (R450) -/
  | flashLoadEnd (bytes : List Byte) (dt : Nat)
  /-- After a flash boot with AUTOSTART, the Gatehouse runs START once the image's PLLs lock, or logs failure at 10 ms. (R457) -/
  | autostart (dt : Nat)
  /-- A configured terrace's bays leave reset on the fourth clock line edge after the release instant and STARTED is set. (R460) -/
  | terraceStart (t dt : Nat)
  /-- A terrace switched on reloads its base plane and block memory from flash and then starts. (R557) -/
  | terraceRestore (t : Nat) (crcOk : Bool) (dt : Nat)
  /-- Background overlay staging ends, setting SHADOW_OK and OVL_STAT.READY. (R471) -/
  | stagingEnd (dt : Nat)
  /-- A terrace scrubber reads the next configuration frame of the plane in force or the shadow plane. (R491) -/
  | configScrubRead (t : Nat) (shadow : Bool) (bay frame word bitNo : Nat) (got : Upset) (dt : Nat)
  /-- The Gatehouse restores an uncorrectable configuration frame from an overlay slot or flash and ends the bay hold. (R493) -/
  | frameRestore (t : Nat) (crcOk : Bool) (dt : Nat)
  /-- A block memory's hidden scrub port reads and writes back one word every 64 clocks. (R496) -/
  | bramScrubRead (t m addr : Nat) (got : Upset) (dt : Nat)
  /-- An on-chip patrol scrubber reads a word and writes back a correction. (R497) -/
  | patrolScrubRead (place : PatrolPlace) (got : PatrolGot) (dt : Nat)
  /-- An uncorrectable Gatehouse memory error restarts its firmware with the effect of RESET type 0. (R490) -/
  | gatehouseRestart (dt : Nat)
  /-- An open DEBUG_AUTH challenge closes after 10 s. (R513) -/
  | challengeExpiry (dt : Nat)
  /-- The 1 s lockout after a wrong response ends and phase 0 is accepted again. (R513) -/
  | lockoutEnd (dt : Nat)
  /-- A BIST set completes, returns its units to reset values and records its signature. (R518) -/
  | bistSetEnd (sig : List Word) (dt : Nat)
  /-- A march run completes and writes its four-word signature. (R524) -/
  | marchEnd (faults : List (Nat × Nat × CellFault)) (dt : Nat)
  /-- At the capture position each clock line of each target terrace captures its flip-flops and slices, then DONE is set. (R527) -/
  | captureSnapshot (edges : List (Nat × Nat)) (last : Bool) (dt : Nat)
  /-- A trace packet is stored into the trace buffer or dropped, with stop and wrap handling. (R539) -/
  | tracePacket (cls src kind : Nat) (d0 d1 : Word) (dt : Nat)
  /-- A monitor input's scan round falls due and converts it 2^AVG times, or is skipped as an overrun. (R546) -/
  | scanRound (i dt : Nat)
  /-- A conversion result is written to the input's result block and compared with its window. (R549) -/
  | conversionResult (i : Nat) (sample : Bool) (codes : List Nat) (dt : Nat)
  /-- Every 10 ms each ADC converts its reference and sets or clears ADC_BAD. (R552) -/
  | referenceConversion (adc code : Nat) (good : Bool) (dt : Nat)
  /-- The EXTEST boundary-scan instruction drives user pins and lanes from the boundary register while BOOT with no base. (R542) -/
  | extest (drive : List Bool)
  /-- The IDCODE instruction selects the identification register. (R542) -/
  | idcode
  /-- The SAMPLE/PRELOAD instruction samples and preloads the boundary register. (R542) -/
  | samplePreload (pins : List Bool)
  /-- The HIGHZ instruction places the scanned outputs in high impedance while BOOT with no base. (R542) -/
  | highz
  /-- The CLAMP instruction holds outputs from the boundary register while BOOT with no base. (R542) -/
  | clamp
  /-- The EXTEST_PULSE instruction tests AC-coupled lanes under IEEE 1149.6. (R542) -/
  | extestPulse (drive : List Bool)
  /-- The EXTEST_TRAIN instruction tests AC-coupled lanes with a pulse train under IEEE 1149.6. (R542) -/
  | extestTrain (drive : List Bool)
  /-- The BYPASS instruction, and every undefined code, selects the one-bit bypass register. (R542) -/
  | bypass (code : Byte)
  /-- A channel on the published coding gains or loses comma alignment or 64b/66b block lock in its received stream, and a frame in progress ends as a failed frame on loss. (R167) -/
  | blockLock (c : Nat) (gain : LockReport) (dt : Nat)
  /-- A lane outside RUN, as in HOLD or LOOP, gains or loses receive clock recovery, changing LN_STAT.LOCK and ending a running eye scan with ERR on loss. (R149) -/
  | receiveLockChange (l : Nat) (lock : Bool) (dt : Nat)
  /-- A Ridgeway target that holds a request sends a HOLDING response to its initiator every 10 µs. (R259) -/
  | holdingSend (dst src : Nat) (seq : BitVec 16) (dt : Nat)
  /-- An uncorrectable error in a ridge gateway, an inter-ridge link or a hub link cuts the ridge off, and packets to it are answered with ERR 0x07 at the sending gateway. (R36) -/
  | gatewayLinkLoss (loss : LinkLoss) (dt : Nat)
  /-- A staged context is complete in the engine's second bank and STAGED is set, within 20 ns for a fresh context or after the save-area read for a saved one. (R386) -/
  | contextStaged (e dt : Nat)
  /-- Every 100 µs each die sensor is converted, whether or not it is enabled, feeding the THERM_N trip rule. (R551) -/
  | dieSensorConversion (codes : List Nat) (dt : Nat)
  /-- The device leaves its self-held reset once VAUX and VCORE are back in range while RESET_N is high. (R441) -/
  | undervoltageRelease (bootsel dt : Nat)
deriving DecidableEq, Repr

end Sys2Proof
end

