-- ==== Sys2Proof/Decode.lean ====
section
/-!
DEFINITION. Decoders. The opcode table gives no command any bits, so no word spells one. The engines' own 32-bit
instruction words (R351) decode to the engine commands; BLV_STEP fetches through this decoder.
-/
namespace Sys2Proof

/-- The command a word spells by the bits of the opcode table: the table gives no row any bits. -/
def decodeTableWord (_nbits _w : Nat) : Option Instr := none

/-- Fields of an engine word (R351). -/
def opOf (w : Word) : Nat := fld w 31 26
def rdOf (w : Word) : Nat := fld w 25 21
def raOf (w : Word) : Nat := fld w 20 16
def rbOf (w : Word) : Nat := fld w 15 11
def funcOf (w : Word) : Nat := fld w 10 0
def immOf (w : Word) : BitVec 16 := BitVec.ofNat 16 w.toNat

/-- Format R, op 0x00. -/
def decodeAlu (e : Nat) (w : Word) : Option Instr :=
  let rd := rdOf w
  let ra := raOf w
  let rb := rbOf w
  match funcOf w with
  | 0x000 => some (.add e rd ra rb) | 0x001 => some (.sub e rd ra rb)
  | 0x002 => some (.adds e rd ra rb) | 0x003 => some (.subs e rd ra rb)
  | 0x004 => some (.and e rd ra rb) | 0x005 => some (.or e rd ra rb) | 0x006 => some (.xor e rd ra rb)
  | 0x008 => some (.sll e rd ra rb) | 0x009 => some (.srl e rd ra rb) | 0x00A => some (.sra e rd ra rb)
  | 0x00C => some (.slli e rd ra rb) | 0x00D => some (.srli e rd ra rb) | 0x00E => some (.srai e rd ra rb)
  | 0x010 => some (.slt e rd ra rb) | 0x011 => some (.sltu e rd ra rb)
  | 0x012 => some (.min e rd ra rb) | 0x013 => some (.max e rd ra rb)
  | 0x014 => some (.cls e rd ra)
  | 0x015 => if rb = 0 then some (.bexp e rd ra) else none
  | 0x018 => some (.mul16 e rd ra rb) | 0x019 => some (.mul16u e rd ra rb)
  | 0x020 => some (.jr e ra) | 0x021 => some (.jalr e rd ra)
  | _ => none

/-- Format M, op 0x28: unused fields of an FN must be 0. -/
def decodeDsp (e : Nat) (w : Word) : Option Instr :=
  let a := fld w 25 25
  let x := fld w 20 16
  let y := fld w 15 11
  let su := fld w 10 9
  let shv := fld w 8 4
  let sh := BitVec.ofNat 5 shv
  let h := fld w 3 3
  if fld w 2 0 ≠ 0 then none
  else match fld w 24 21 with
  | 0x0 => if shv = 0 ∧ h = 0 then some (.mac e a x y su) else none
  | 0x1 => if shv = 0 ∧ h = 0 then some (.msu e a x y su) else none
  | 0x2 => if shv = 0 ∧ h = 0 then some (.mpy e a x y su) else none
  | 0x3 => if x = 0 ∧ y = 0 ∧ shv = 0 ∧ h = 0 then some (.ftap e a su) else none
  | 0x4 => if x = 0 ∧ y = 0 ∧ shv = 0 ∧ h = 0 then some (.ftapn e a su) else none
  | 0x5 => if x = 0 ∧ y = 0 ∧ su = 0 ∧ shv = 0 ∧ h = 0 then some (.aclr e a) else none
  | 0x6 => if x = 0 ∧ y = 0 ∧ su = 0 ∧ h = 0 then some (.ash e a sh) else none
  | 0x7 => if y = 0 ∧ su = 0 ∧ shv = 0 ∧ h = 0 then some (.aexp e a x) else none
  | 0x8 => if y = 0 ∧ su = 0 then some (.amov e a x sh (decide (h = 1))) else none
  | 0x9 => if y = 0 ∧ su = 0 ∧ shv = 0 ∧ h = 0 then some (.afrom e a x) else none
  | 0xA => if x = 0 ∧ y = 0 ∧ su = 0 ∧ shv = 0 ∧ h = 0 then some (.aadd e a) else none
  | _ => none

/-- Format R, op 0x3A. -/
def decodeSys (e : Nat) (w : Word) : Option Instr :=
  match funcOf w with
  | 0x000 => some (.reti e) | 0x001 => some (.texit e) | 0x002 => some (.yield e)
  | 0x003 => some (.post e (rdOf w) (raOf w))
  | 0x004 => some (.wdk e) | 0x005 => some (.pub e (rbOf w)) | 0x006 => some (.fence e) | 0x007 => some (.brk e)
  | _ => none

/-- The instruction of engine `e` that a word spells; none is fault 0x1 (R351). A LEN of 0 is none: LEN is 1 to 2,047. -/
def decodeEngine (e : Nat) (w : Word) : Option Instr :=
  let rd := rdOf w
  let ra := raOf w
  let imm := immOf w
  match opOf w with
  | 0x00 => decodeAlu e w
  | 0x01 => some (.addi e rd ra imm) | 0x02 => some (.andi e rd ra imm) | 0x03 => some (.ori e rd ra imm)
  | 0x04 => some (.xori e rd ra imm) | 0x05 => some (.slti e rd ra imm)
  | 0x06 => if ra = 0 then some (.lui e rd imm) else none
  | 0x08 => some (.ldb e rd ra imm) | 0x09 => some (.ldbu e rd ra imm) | 0x0A => some (.ldh e rd ra imm)
  | 0x0B => some (.ldhu e rd ra imm) | 0x0C => some (.ldw e rd ra imm) | 0x0D => some (.ldd e rd ra imm)
  | 0x0E => some (.ll e rd ra imm)
  | 0x10 => some (.stb e rd ra imm) | 0x11 => some (.sth e rd ra imm) | 0x12 => some (.stw e rd ra imm)
  | 0x13 => some (.std e rd ra imm) | 0x14 => some (.sc e rd ra imm) | 0x15 => some (.stws e rd ra imm)
  | 0x18 => some (.beq e rd ra imm) | 0x19 => some (.bne e rd ra imm) | 0x1A => some (.blt e rd ra imm)
  | 0x1B => some (.bge e rd ra imm) | 0x1C => some (.bltu e rd ra imm) | 0x1D => some (.bgeu e rd ra imm)
  | 0x1E => some (.j e (BitVec.ofNat 26 w.toNat)) | 0x1F => some (.jal e (BitVec.ofNat 26 w.toNat))
  | 0x28 => decodeDsp e w
  | 0x30 =>
    let useReg := decide (fld w 25 25 = 1)
    let len := fld w 22 12
    if fld w 24 23 ≠ 0 ∨ len = 0 then none
    else some (.rpt e useReg len (if useReg then fld w 4 0 else fld w 11 0))
  | 0x38 => some (.mfc e rd (fld w 5 0))
  | 0x39 => if rd = 0 then some (.mtc e ra (fld w 5 0)) else none
  | 0x3A => decodeSys e w
  | _ => none

/-- A word of format R, I, M from its fields. -/
def encR (op rd ra rb func : Nat) : Word :=
  BitVec.ofNat 32 (op * 2 ^ 26 + rd * 2 ^ 21 + ra * 2 ^ 16 + rb * 2 ^ 11 + func)
def encI (op rd ra : Nat) (imm : BitVec 16) : Word :=
  BitVec.ofNat 32 (op * 2 ^ 26 + rd * 2 ^ 21 + ra * 2 ^ 16 + imm.toNat)
def encM (a fn x y su : Nat) (sh : BitVec 5) (h : Nat) : Word :=
  BitVec.ofNat 32 (0x28 * 2 ^ 26 + a * 2 ^ 25 + fn * 2 ^ 21 + x * 2 ^ 16 + y * 2 ^ 11 + su * 2 ^ 9 + sh.toNat * 2 ^ 4 + h * 2 ^ 3)

/-- The word of an engine instruction (R351); none for the other commands. -/
def encodeEngine : Instr → Option Word
  | .add _ rd ra rb => some (encR 0 rd ra rb 0x000) | .sub _ rd ra rb => some (encR 0 rd ra rb 0x001)
  | .adds _ rd ra rb => some (encR 0 rd ra rb 0x002) | .subs _ rd ra rb => some (encR 0 rd ra rb 0x003)
  | .and _ rd ra rb => some (encR 0 rd ra rb 0x004) | .or _ rd ra rb => some (encR 0 rd ra rb 0x005)
  | .xor _ rd ra rb => some (encR 0 rd ra rb 0x006)
  | .sll _ rd ra rb => some (encR 0 rd ra rb 0x008) | .srl _ rd ra rb => some (encR 0 rd ra rb 0x009)
  | .sra _ rd ra rb => some (encR 0 rd ra rb 0x00A)
  | .slli _ rd ra rb => some (encR 0 rd ra rb 0x00C) | .srli _ rd ra rb => some (encR 0 rd ra rb 0x00D)
  | .srai _ rd ra rb => some (encR 0 rd ra rb 0x00E)
  | .slt _ rd ra rb => some (encR 0 rd ra rb 0x010) | .sltu _ rd ra rb => some (encR 0 rd ra rb 0x011)
  | .min _ rd ra rb => some (encR 0 rd ra rb 0x012) | .max _ rd ra rb => some (encR 0 rd ra rb 0x013)
  | .cls _ rd ra => some (encR 0 rd ra 0 0x014) | .bexp _ rd ra => some (encR 0 rd ra 0 0x015)
  | .mul16 _ rd ra rb => some (encR 0 rd ra rb 0x018) | .mul16u _ rd ra rb => some (encR 0 rd ra rb 0x019)
  | .jr _ ra => some (encR 0 0 ra 0 0x020) | .jalr _ rd ra => some (encR 0 rd ra 0 0x021)
  | .addi _ rd ra imm => some (encI 0x01 rd ra imm) | .andi _ rd ra imm => some (encI 0x02 rd ra imm)
  | .ori _ rd ra imm => some (encI 0x03 rd ra imm) | .xori _ rd ra imm => some (encI 0x04 rd ra imm)
  | .slti _ rd ra imm => some (encI 0x05 rd ra imm) | .lui _ rd imm => some (encI 0x06 rd 0 imm)
  | .ldb _ rd ra imm => some (encI 0x08 rd ra imm) | .ldbu _ rd ra imm => some (encI 0x09 rd ra imm)
  | .ldh _ rd ra imm => some (encI 0x0A rd ra imm) | .ldhu _ rd ra imm => some (encI 0x0B rd ra imm)
  | .ldw _ rd ra imm => some (encI 0x0C rd ra imm) | .ldd _ rd ra imm => some (encI 0x0D rd ra imm)
  | .ll _ rd ra imm => some (encI 0x0E rd ra imm)
  | .stb _ rd ra imm => some (encI 0x10 rd ra imm) | .sth _ rd ra imm => some (encI 0x11 rd ra imm)
  | .stw _ rd ra imm => some (encI 0x12 rd ra imm) | .std _ rd ra imm => some (encI 0x13 rd ra imm)
  | .sc _ rd ra imm => some (encI 0x14 rd ra imm) | .stws _ rd ra imm => some (encI 0x15 rd ra imm)
  | .beq _ ra rb off => some (encI 0x18 ra rb off) | .bne _ ra rb off => some (encI 0x19 ra rb off)
  | .blt _ ra rb off => some (encI 0x1A ra rb off) | .bge _ ra rb off => some (encI 0x1B ra rb off)
  | .bltu _ ra rb off => some (encI 0x1C ra rb off) | .bgeu _ ra rb off => some (encI 0x1D ra rb off)
  | .j _ off => some (BitVec.ofNat 32 (0x1E * 2 ^ 26 + off.toNat))
  | .jal _ off => some (BitVec.ofNat 32 (0x1F * 2 ^ 26 + off.toNat))
  | .mac _ a x y su => some (encM a 0x0 x y su 0 0) | .msu _ a x y su => some (encM a 0x1 x y su 0 0)
  | .mpy _ a x y su => some (encM a 0x2 x y su 0 0)
  | .ftap _ a su => some (encM a 0x3 0 0 su 0 0) | .ftapn _ a su => some (encM a 0x4 0 0 su 0 0)
  | .aclr _ a => some (encM a 0x5 0 0 0 0 0) | .ash _ a sh => some (encM a 0x6 0 0 0 sh 0)
  | .aexp _ a x => some (encM a 0x7 x 0 0 0 0)
  | .amov _ a x sh hi => some (encM a 0x8 x 0 0 sh (if hi then 1 else 0))
  | .afrom _ a x => some (encM a 0x9 x 0 0 0 0) | .aadd _ a => some (encM a 0xA 0 0 0 0 0)
  | .rpt _ useReg len count =>
    some (BitVec.ofNat 32 (0x30 * 2 ^ 26 + (if useReg then 2 ^ 25 else 0) + len * 2 ^ 12 + count))
  | .mfc _ rd n => some (encI 0x38 rd 0 (BitVec.ofNat 16 n)) | .mtc _ ra n => some (encI 0x39 0 ra (BitVec.ofNat 16 n))
  | .reti _ => some (encR 0x3A 0 0 0 0x000) | .texit _ => some (encR 0x3A 0 0 0 0x001)
  | .yield _ => some (encR 0x3A 0 0 0 0x002) | .post _ rd ra => some (encR 0x3A rd ra 0 0x003)
  | .wdk _ => some (encR 0x3A 0 0 0 0x004) | .pub _ flags => some (encR 0x3A 0 0 flags 0x005)
  | .fence _ => some (encR 0x3A 0 0 0 0x006) | .brk _ => some (encR 0x3A 0 0 0 0x007)
  | _ => none

end Sys2Proof
end

