-- ==== Sys2Proof/Config.lean ====
section
/-!
DEFINITION. What one TY9144 fixes at manufacture or leaves open, as constants without a body: fused values, the free
values of the manual, and functions the manual names without stating them. Nothing in Lean can evaluate them.
-/
namespace Sys2Proof.Config

/-- DEV_STEP [15:0]: stepping and grade, fused. -/
opaque devStep : BitVec 16
/-- DEV_SERIAL_LO, DEV_SERIAL_HI, fused at manufacture. -/
opaque serialLo : Word
opaque serialHi : Word
/-- DEV_FW_VER: Gatehouse firmware version. -/
opaque fwVersion : Word
/-- The 256-bit device transport key, 32 bytes (R420). -/
opaque transportKey : List Byte
/-- The 256-bit debug key of levels 1 to 3 (R512). -/
opaque debugKey : Nat → List Byte
/-- The fused SHA-384 hashes of signing keys, up to four (R449). -/
opaque signingHashes : List (List Byte)
/-- The expected signature of BIST set n, four words (R518). -/
opaque bistExpected : Nat → List Word

/-- A fresh word the manual does not define, counted by `State.freeCtr`. -/
opaque freeWord : Nat → Word
/-- A fresh bit the manual does not define. -/
opaque freeBit : Nat → Bool
/-- The device's random source: word k of the n-th challenge (R511). -/
opaque randomWord : Nat → Nat → Word

/-- CH_TS_TXLAT and CH_TS_RXLAT of a speed step without encryption, in 1/65,536 ns (R122, values not stated). -/
opaque txLatency : Nat → Word
opaque rxLatency : Nat → Word

/-- The clocks in which an engine stalls in a span of time, and those of them that a scratchpad conflict causes (R352-R355:
pipeline timing, which the model leaves out): engine, start and length of the span in ps. -/
opaque stallClocks : Nat → Nat → Nat → Nat
opaque conflictClocks : Nat → Nat → Nat → Nat
/-- How far a first-order low-pass filter of a corner frequency in tenths of a hertz moves to its input in an interval of ps, in
2^-40 (R110 does not state its discrete form); the timebase bounds it. -/
opaque lowPass : Nat → Nat → Nat
/-- Whether the frame loop and the oscillator comparison round a quotient up (R110, R112, R326: the rounding is not
stated): numerator, denominator. -/
opaque roundUp : Int → Nat → Bool
/-- A quotient rounded to one of the two whole numbers about it. -/
def roundQuot (n : Int) (d : Nat) : Int := n / (d : Int) + (if n % (d : Int) ≠ 0 ∧ roundUp n d = true then 1 else 0)
/-- The bandwidth of the reserved code 0b11 of TB_CTRL.BW, in tenths of a hertz. -/
opaque reservedBw : Nat

/-- What a TERRACE section says of a terrace (R448: as written by Arbour), as words: word 0 [31:0] flags
[0] switchable, [1] window logic, [5:2] line l user-gated; word 1: clock source of line l in [8l+7:8l]
(0-7, else off). -/
opaque terraceInfo : List Word → Nat → Word
/-- What a code group that is no data byte is read as in a data word (R166; free). -/
opaque badByte : BitVec 10 → Byte
/-- Initial 64-bit word a of block memory m in a BRAM section (R304). -/
opaque bramInit : List Word → Nat → Nat → BitVec 64
/-- Whether memory m of a terrace is organised 512 x 128 (R299). -/
opaque bramWide : List Word → Nat → Bool
/-- The Spine drivers a SPINE section declares: pairs (spine, terrace) (R287, layout by Arbour). -/
opaque spineDrivers : List Word → List (Nat × Nat)
/-- The one-hot groups a SPINE section declares: a Spine and the terraces whose drivers are in the group (R287). -/
opaque spineGroups : List Word → List (Nat × List Nat)

/-! What a TERRACE section makes of a terrace's logic (R278-R290; as written by Arbour, R448). -/

/-- The LUT of a cell: O6 by I5 to I0; as two 5-input LUTs, O6 in bits 63 to 32 and O5 in bits 31 to 0 (R278). -/
opaque cellLut : List Word → Nat → BitVec 64
opaque cellSplit : List Word → Nat → Bool
/-- O5 of a cell whose LUT works with six inputs (R278 states none). -/
opaque idleO5 : List Word → Nat → Bool
/-- The D source of flip-flop 2c (FA) or 2c + 1 (FB): 0 O6, 1 O5, 2 the sum, else the bypass input (R278); its reset value (R280). -/
opaque ffSource : List Word → Nat → Nat
opaque ffReset : List Word → Nat → Bool
/-- How a cell takes its carry-in: 1 a chain starts with 0, 2 with 1, 3 from the crossbar, else from the cell before (R279). -/
opaque chainStart : List Word → Nat → Nat
/-- The clock line of a part of the terrace (R280, R290). -/
opaque clockLine : List Word → FabClock → Nat
/-- A memory port has its output register (R302). -/
opaque portRegister : List Word → Nat → Bool
/-- The selections of the crossbar's two stages (R281). -/
opaque stage1 : List Word → Nat → FabSource
opaque stage2 : List Word → FabInput → FabTap
/-- The Spur that arrives on a wire (R284). -/
opaque spurRoute : List Word → Nat → SpurRoute
/-- The terrace's driver on a Spine: its data and its enable, outputs of stage 1; none without a driver (R286). -/
opaque spineDriver : List Word → Nat → Option (Nat × Nat)
/-- The level of a loop of logic without a flip-flop, of terrace t at a time (no rule settles one). -/
opaque loopLevel : Nat → Nat → Bool
/-- The level of a wire of a hard port toward user logic, whose order on the port no rule gives: terrace, port, wire, time. -/
opaque hardLevel : Nat → Nat → Nat → Nat → Bool
/-- The rising edges of the fabric clock sources in a span of time, ps, under the settings of the fabric PLLs (of each FB, DIV,
CTRL and the spread in force): the time and the sources (8 r + n) that have one edge together, in order (R290, R291; the phases
of PLL outputs are not stated). -/
opaque sourceEdges : List (List Word) → Nat → Nat → List (Nat × List Nat)
/-- The next lowest point of the modulation of a PLL after a time (R335; its phase is not stated). -/
opaque lowestPoint : Nat → Nat → Nat
/-- The FOSC cycles in a period of SOSC at a time (R322: both drift within their accuracy); CK_STAT.SOSC_OK, which no rule
defines. -/
opaque foscCount : Nat → Nat
opaque soscOk : Nat → Bool
/-- The 8-bit code of a 64-bit half-word (R299; the code is not stated). -/
opaque bramCode : BitVec 64 → BitVec 8
/-- What something outside the device drives the ball of a pin to, at a time; none: nothing does. -/
opaque ballDrive : Nat → Nat → Option Bool
/-- The level at the ball of a pin that nothing drives, pulls or keeps, at a time (R320). -/
opaque ballLevel : Nat → Nat → Bool
/-- The level a keeper holds that nothing has driven since its VIO rose, at that time (R320). -/
opaque keeperLevel : Nat → Nat → Bool
/-- CK_PLL_FB and CK_PLL_DIV of the system PLL for a declared reference frequency in kHz (R328: two VCOs, one register). -/
opaque spllFb : Nat → Word
opaque spllDiv : Nat → Word

/-- The time in ps between two refreshes of a bank of a DRAM channel at its normal rate (R412 gives the rows' 32 ms, not the rows a
refresh takes). -/
opaque refreshInterval : Nat → Nat
/-- The four Reed-Solomon check bytes over 64 data bytes and four TAG bytes (R401: the generator is not stated). -/
opaque rsCheck : List Byte → Word
/-- Which reason of the table of R16 the ERR carries that answers fabric logic's access to a range closed to it (R30 names
none): a place in `reasonCodes`. -/
opaque closedPlace : Nat
/-- What a training helper reads as while a training runs, at a time: the value training last set (R410), which no rule gives. -/
opaque trainingValue : Nat → Nat → Word
/-- MARCH_PROG while a march runs, at a time: how far it has come is not stated. -/
opaque marchProgress : Nat → Word
/-- The latency in Ridgeway clocks of the request of a hub port that left at a time (R275; no time is stated). -/
opaque hubLatency : Nat → Nat → Nat
/-- RW_IST words of a port that is not a port of the range read (R275 gives none): port, word. -/
opaque strangePort : Nat → Nat → Word
end Sys2Proof.Config
end

