-- ==== Sys2Proof/Machine/FabricCell.lean ====
section
/-! DEFINITION. What the parts of the fabric compute: logic cell and carry chain (R278, R279), Spurs and Spines (R277, R285,
R286, R288, R289), arithmetic slice (R296-R298), and the timing rule (R292-R295), as functions. The image joins the parts
(UserLogic.lean, log entry 56). -/

namespace Sys2Proof.Machine.FabricCell

/-! ### Logic cell and carry chain (R278, R279) -/

/-- A lookup in a truth table by the inputs, input 0 the least significant. -/
def lutAt (table : Nat → Bool) (ins : List Bool) : Bool := table (ins.foldr (fun b n => 2 * n + b.toNat) 0)

/-- The 6-input LUT: O6 of I0 to I5. -/
def lut6 (init : BitVec 64) (i0 i1 i2 i3 i4 i5 : Bool) : Bool := lutAt init.getLsbD [i0, i1, i2, i3, i4, i5]

/-- Two 5-input LUTs that share I0 to I4, I5 held at 1: O6 and O5. -/
def lut5 (init6 init5 : BitVec 32) (i0 i1 i2 i3 i4 : Bool) : Bool × Bool :=
  (lutAt init6.getLsbD [i0, i1, i2, i3, i4], lutAt init5.getLsbD [i0, i1, i2, i3, i4])

/-- The sum output of a cell. -/
def sumOut (o6 carryIn : Bool) : Bool := o6 != carryIn

/-- The carry-out of a cell. -/
def carryOut (o6 i5 carryIn : Bool) : Bool := if o6 then carryIn else i5

/-- A chain of cells, each given by its O6 and its I5: the sums in order, and the last carry-out. -/
def chain : Bool → List (Bool × Bool) → List Bool × Bool
  | c, [] => ([], c)
  | c, (o6, i5) :: cells =>
    let (sums, out) := chain (carryOut o6 i5 c) cells
    (sumOut o6 c :: sums, out)

/-! ### Spurs (R277, R285) -/

/-- Column and row of a terrace in its ridge. -/
def column (t : Nat) : Nat := t % 32 % 8
def row (t : Nat) : Nat := t % 32 / 8

/-- The distance of two numbers. -/
def apart (a b : Nat) : Nat := (a - b) + (b - a)

/-- Spur distance; none between ridges. -/
def spurDistance (t u : Nat) : Option Nat :=
  if t / 32 = u / 32 then some (apart (column t) (column u) + apart (row t) (row u)) else none

/-- Neighbours differ by one in x or in y, but not in both. -/
def neighbours (t u : Nat) : Bool := decide (spurDistance t u = some 1)

/-- What a Spur delivers: 0 unless its source terrace is on, configured and started, and every terrace on its way is on. -/
def spurRead (sourceLive wayOn data : Bool) : Bool := sourceLive && wayOn && data

/-! ### Spines (R286, R288, R289) -/

/-- A driver of a Spine in one clock: its enable, its bit in TC_CONT, its data. -/
structure SpineDriver where
  enable : Bool
  cont : Bool
  data : Bool
deriving DecidableEq, Repr

/-- A driver drives when its enable is 1 and its bit is 0. -/
def SpineDriver.drives (d : SpineDriver) : Bool := d.enable && !d.cont

/-- One clock of a Spine: what its readers see, and the drivers' bits after the clock. -/
def spineClock (ds : List SpineDriver) : Bool × List Bool :=
  match ds.filter SpineDriver.drives with
  | [] => (false, ds.map (fun d => d.cont))
  | [d] => (d.data, ds.map (fun d => d.cont))
  | _ => (false, ds.map (fun d => d.cont || d.drives))

/-! ### Arithmetic slice (R296-R298) -/

/-- The opcode fields of a slice. -/
structure SliceOp where
  pre : BitVec 2
  zsel : BitVec 2
  sub : Bool
  sat : Bool
deriving DecidableEq, Repr

/-- A slice's inputs from the crossbar in one clock. -/
structure SliceIn where
  a : BitVec 27
  b : BitVec 24
  d : BitVec 27
  c : BitVec 64
  op : SliceOp
deriving DecidableEq, Repr

/-- The registers of a slice. The fields ZSEL, SUB and SAT travel with their operands to stage 3 (DEDUCED from R298, log entry 56). -/
structure Slice where
  a : BitVec 27
  b : BitVec 24
  d : BitVec 27
  op1 : SliceOp
  m : BitVec 64
  c : BitVec 64
  op2 : SliceOp
  p : BitVec 64
  ovf : Bool
deriving DecidableEq, Repr

/-- A slice whose registers all hold 0 (R458). -/
def Slice.zero : Slice :=
  { a := 0, b := 0, d := 0, op1 := ⟨0, 0, false, false⟩, m := 0, c := 0, op2 := ⟨0, 0, false, false⟩, p := 0, ovf := false }

/-- The pre-adder, wrapping to 27 bits (R297). -/
def preAdd (pre : BitVec 2) (a d : BitVec 27) : BitVec 27 :=
  match pre.toNat with
  | 0 => a
  | 1 => a + d
  | 2 => a - d
  | _ => d

/-- The exact product, sign-extended to 64 bits (R297). -/
def product (x : BitVec 27) (b : BitVec 24) : BitVec 64 := BitVec.ofInt 64 (x.toInt * b.toInt)

/-- A result outside the 64-bit signed range. -/
def outOfRange (r : Int) : Bool := decide (r < -2 ^ 63 ∨ 2 ^ 63 ≤ r)

/-- Stage 3: P and OVF of an exact result (R296, R297). -/
def settle (sat : Bool) (r : Int) : BitVec 64 × Bool :=
  let p := if sat && outOfRange r then (if r < 0 then BitVec.ofInt 64 (-2 ^ 63) else BitVec.ofInt 64 (2 ^ 63 - 1))
    else BitVec.ofInt 64 r
  (p, outOfRange r)

/-- The Z input: 0, P, C or PCIN (R296). -/
def zOf (zsel : BitVec 2) (p c pcin : BitVec 64) : BitVec 64 :=
  match zsel.toNat with
  | 0 => 0
  | 1 => p
  | 2 => c
  | _ => pcin

/-- One clock of a slice; `pcin` is the P of the slice below in the same clock, 0 at the foot of a column. -/
def sliceClock (s : Slice) (i : SliceIn) (pcin : BitVec 64) : Slice :=
  let z := (zOf s.op2.zsel s.p s.c pcin).toInt
  let (p, ovf) := settle s.op2.sat (if s.op2.sub then z - s.m.toInt else z + s.m.toInt)
  { a := i.a, b := i.b, d := i.d, op1 := i.op, m := product (preAdd s.op1.pre s.a s.d) s.b, c := i.c, op2 := s.op1, p := p,
    ovf := ovf }

/-! ### Timing (R292-R295), in picoseconds, every figure a maximum -/

/-- A path between synchronous flip-flops. -/
structure Path where
  /-- LUT levels, at least 1. -/
  levels : Nat
  /-- Spur hops. -/
  hops : Nat
  /-- The path crosses a Spine. -/
  spine : Bool
  /-- Both ends lie in one terrace. -/
  oneTerrace : Bool
  /-- Cells and bays of a chain from entry to its sum; none without a chain. -/
  carry : Option (Nat × Nat)
  /-- The only level is the bypass input, whose LUT delay is 0. -/
  bypass : Bool
deriving DecidableEq, Repr

/-- The carry term of R293. -/
def carryPs : Option (Nat × Nat) → Nat
  | none => 0
  | some (n, bays) => 40 + 8 * (n - 1) + 20 * (bays - 1) + 30

/-- The sum of R293. -/
def pathPs (p : Path) : Nat :=
  45 + 35 + (if p.oneTerrace then 30 else 60) + 2 * 95 * p.levels + (if p.bypass then 0 else 70 * p.levels) +
    140 * p.hops + (if p.spine then 520 else 0) + carryPs p.carry

/-- The path meets timing at a period in femtoseconds. -/
def meetsTiming (p : Path) (periodFs : Nat) : Bool := decide (1000 * pathPs p ≤ periodFs)

/-- The highest clock of a line in kHz by speed grade (R295). -/
def lineLimitKHz (grade : Nat) : Nat := if grade = 2 then 1000000 else 850000

end Sys2Proof.Machine.FabricCell
end

