-- ==== Sys2Proof/Machine/RegMap.lean ====
section
/-!
DEFINITION. The parameter space (R73): which block and word an address names, who owns it, and for every register the
masks of its fields' access codes, its Reset column and its check-guarded and enable bits, written from the chapters'
register maps. A word no row names is reserved: it reads 0 and ignores writes (R75).
-/
namespace Sys2Proof.Machine

/-- The masks of one register: Reset column, RW (and the stored part of WO: none), W1C, W1S, bits cleared by a
read (RC), check-guarded bits (R91) and the enable bit. -/
structure RegSpec where
  reset : Word := 0
  rw : Word := 0
  w1c : Word := 0
  w1s : Word := 0
  rc : Word := 0
  guard : Word := 0
  en : Word := 0
deriving DecidableEq, Repr

/-- A run of registers of one layout: first offset, distance, number. -/
structure RegRow where
  off : Nat
  stride : Nat := 4
  count : Nat := 1
  spec : RegSpec := {}
deriving DecidableEq, Repr


/-- Registers of the block: DEV_ID, DEV_STEP, DEV_SERIAL_LO, DEV_SERIAL_HI, DEV_MODE, MODE_AUTO, DEV_GSTAT, DEV_FW_VER, DEV_IMAGE_ID, DEV_OVL_COUNT, DEV_LOG_UNACK, DEV_RETIRE_CNT. -/
def deviceRows : List RegRow := [
  { off := 0x0, spec := { reset := 0x9144 } },
  { off := 0x4 },
  { off := 0x8 },
  { off := 0xC },
  { off := 0x10 },
  { off := 0x14, spec := { rw := 0x1 } },
  { off := 0x18, spec := { w1c := 0x700000 } },
  { off := 0x1C },
  { off := 0x20 },
  { off := 0x24 },
  { off := 0x28 },
  { off := 0x2C }]

/-- Registers of the block: GH_PORT_STAT, GH_REPLY_INFO, GH_WDOG_PERIOD, GH_WDOG_COUNT, OVL_STAT, OVL_IMAGE_ID, OVL_SEQ, OVL_INFO. -/
def gatehouseRows : List RegRow := [
  { off := 0x0, spec := { reset := 0x8000, w1c := 0x800 } },
  { off := 0x4 },
  { off := 0x10, spec := { rw := 0xFFFF } },
  { off := 0x14 },
  { off := 0x100 },
  { off := 0x120, stride := 0x10, count := 8 },
  { off := 0x124, stride := 0x10, count := 8 },
  { off := 0x128, stride := 0x10, count := 8 }]

/-- Registers of the block: TB_CTRL, TB_CHECK, TB_STAT, TB_NOW, TB_ADDEND_HI, TB_ADDEND_LO, TB_FP_RATE, TB_PHASE_ERR, TB_SF_LOAD, TB_SFSTAMP, TB_REF_DLY_A, TB_REF_DLY_B, TB_LOSS_CNT, TB_MARK_ERR, CN_STAT, CN_EVENT, CN_EVENT_LOST, CN_FIRE_CNT, CN_MISS_CNT, TB_PSTAMP, TB_PIN_CFG. -/
def timebaseRows : List RegRow := [
  { off := 0x0, spec := { reset := 0x100, rw := 0xB3D, w1s := 0x8000, guard := 0xC, en := 0x1 } },
  { off := 0x4 },
  { off := 0x8, spec := { w1c := 0x780 } },
  { off := 0x10, stride := 0x4, count := 5 },
  { off := 0x24, spec := { reset := 0x200 } },
  { off := 0x28 },
  { off := 0x2C },
  { off := 0x30 },
  { off := 0x34, spec := { rw := 0xFFFFFFFF } },
  { off := 0x38, stride := 0x4, count := 4 },
  { off := 0x48, spec := { rw := 0xFFFFFFFF } },
  { off := 0x4C, spec := { rw := 0xFFFFFFFF } },
  { off := 0x50 },
  { off := 0x54 },
  { off := 0x60, spec := { reset := 0x1000 } },
  { off := 0x70, stride := 0x4, count := 3 },
  { off := 0x7C },
  { off := 0x80 },
  { off := 0x84 },
  { off := 0x1000, stride := 0x4, count := 512 },
  { off := 0x1800, stride := 0x4, count := 64, spec := { rw := 0x3FFF } }]

/-- Registers of the block: CAIRN_SF/FP/ACT/REP. -/
def cairnsRows : List RegRow := [
  { off := 0x0, stride := 0x4, count := 16384 }]

/-- Registers of the block: CH_TS_CFG, CH_TS_ASYM, CH_TS_TXLAT, CH_TS_RXLAT, CH_TS_STAMP, CH_CTRL, CH_CHECK, CH_STAT, CH_LG, CH_RETRY_CFG, CH_FAULT, CH_LG_SKEW, CH_CNT_TXF.._MARKSKIP, CH_LQ_CFG, CH_LQ_WIN, CH_ENC_CFG, CH_ENC_TXEP_HI, CH_ENC_TXEP_LO, CH_ENC_RXEP_HI, CH_ENC_RXEP_LO, CH_CNT_INTEG. -/
def channelRows : List RegRow := [
  { off := 0x800, spec := { rw := 0x3FFF } },
  { off := 0x804, spec := { rw := 0xFFFFFFFF } },
  { off := 0x808 },
  { off := 0x80C },
  { off := 0x810, stride := 0x4, count := 6 },
  { off := 0x0, spec := { reset := 0xC00, rw := 0x3FFC01, guard := 0x3FFC00, en := 0x1 } },
  { off := 0x4 },
  { off := 0x8, spec := { reset := 0xFF0000 } },
  { off := 0xC, spec := { reset := 0x100FF, rw := 0xC0FFFFFF, guard := 0xC0FFFFFF } },
  { off := 0x10, spec := { reset := 0x140A20, rw := 0xFFFFFF, guard := 0xFFFFFF } },
  { off := 0x14, spec := { w1c := 0xC000000 } },
  { off := 0x18 },
  { off := 0x20, stride := 0x4, count := 7, spec := { rc := 0xFFFFFFFF } },
  { off := 0x100, stride := 0x4, count := 8, spec := { rw := 0x1 } },
  { off := 0xC00, stride := 0x40, count := 8 },
  { off := 0x880, spec := { rw := 0x1, guard := 0x1 } },
  { off := 0x884, spec := { rw := 0xFFFF, guard := 0xFFFF } },
  { off := 0x888, spec := { rw := 0xFFFFFFFF, guard := 0xFFFFFFFF } },
  { off := 0x88C, spec := { rw := 0xFFFF, guard := 0xFFFF } },
  { off := 0x890, spec := { rw := 0xFFFFFFFF, guard := 0xFFFFFFFF } },
  { off := 0x894, spec := { rc := 0xFFFFFFFF } }]

/-- Registers of the block: LQ_STAT, RES_STAT/EYE result block, EYE data. -/
def quadRows : List RegRow := [
  { off := 0x0 },
  { off := 0x400, stride := 0x4, count := 8 },
  { off := 0x420, stride := 0x4, count := 512 }]

/-- Registers of the block: LN_CFG, LN_STAT, LN_LADDER_CAP, LN_LADDER_OWN, LN_LADDER_STAT, LN_RXEQ_CTRL, LN_RXEQ_SET, LN_RXEQ_VAL, LN_PRBS, LN_PRBS_ERR, LN_ALIGN_PAT_LO, LN_ALIGN_PAT_HI, LN_ALIGN_STAT, LN_EYE_MASK, LN_TX_CFG. -/
def laneRows : List RegRow := [
  { off := 0x0, spec := { reset := 0xA0, rw := 0xFF7FF800, guard := 0xFF7C2000 } },
  { off := 0x4 },
  { off := 0x8 },
  { off := 0xC },
  { off := 0x10, spec := { reset := 0x3C000000, w1c := 0x40000000 } },
  { off := 0x14, spec := { reset := 0x10, rw := 0x3F, guard := 0x3 } },
  { off := 0x18, spec := { rw := 0x3FF } },
  { off := 0x1C, stride := 0x4, count := 4 },
  { off := 0x2C, spec := { rw := 0xF } },
  { off := 0x30, spec := { rc := 0xFFFFFFFF } },
  { off := 0x34, spec := { rw := 0xFFFFFFFF } },
  { off := 0x38, spec := { rw := 0xFFFFFFFF } },
  { off := 0x3C },
  { off := 0x40, spec := { reset := 0x10140000, rw := 0xFFFFFFFF } },
  { off := 0x44, spec := { reset := 0x1, rw := 0x7 } }]

/-- Registers of the block: LN_TXPRE 0, LN_TXPRE 1, LN_TXPRE 2, LN_TXPRE 3, LN_TXPRE 4, LN_TXPRE 5, LN_TXPRE 6, LN_TXPRE 7, LN_TXPRE 8, LN_TXPRE 9, LN_TXPRE 10. -/
def txPresetRows : List RegRow := [
  { off := 0x0, spec := { reset := 0x3F0000, rw := 0x3FFFFF } },
  { off := 0x4, spec := { reset := 0x3F0000, rw := 0x3FFFFF } },
  { off := 0x8, spec := { reset := 0x3F0000, rw := 0x3FFFFF } },
  { off := 0xC, spec := { reset := 0x3F0000, rw := 0x3FFFFF } },
  { off := 0x10, spec := { reset := 0x3F0000, rw := 0x3FFFFF } },
  { off := 0x14, spec := { reset := 0x332040, rw := 0x3FFFFF } },
  { off := 0x18, spec := { reset := 0x332040, rw := 0x3FFFFF } },
  { off := 0x1C, spec := { reset := 0x2D3060, rw := 0x3FFFFF } },
  { off := 0x20, spec := { reset := 0x2D3060, rw := 0x3FFFFF } },
  { off := 0x24, spec := { reset := 0x293082, rw := 0x3FFFFF } },
  { off := 0x28, spec := { reset := 0x293082, rw := 0x3FFFFF } }]

/-- Registers of the block: CIS_CTRL, CIS_CHECK, CIS_THRESH, CIS_STAT, CIS_CMD, CIS_QUEUE, CIS_WR_DATA, CIS_WR_END, CIS_RD_TAG, CIS_RD_D, CIS_CNT_FRAMES.._LOST, CIS_CNT_RESET. -/
def cisternRows : List RegRow := [
  { off := 0x0, spec := { reset := 0x240, rw := 0x7F0FE1, guard := 0x7F0FE0, en := 0x1 } },
  { off := 0x4 },
  { off := 0x8, spec := { rw := 0xFFFFFF, guard := 0xFFFF } },
  { off := 0xC, spec := { w1c := 0x80000000 } },
  { off := 0x10, spec := { w1s := 0x3 } },
  { off := 0x18, spec := { rw := 0xFFFF, guard := 0xFFFF } },
  { off := 0x20 },
  { off := 0x24 },
  { off := 0x40 },
  { off := 0x44, stride := 0x4, count := 8 },
  { off := 0x80, stride := 0x4, count := 6, spec := { rc := 0xFFFFFFFF } },
  { off := 0x98 }]

/-- Registers of the block: ORC_CTRL, ORC_CHECK, ORC_STAT, ORC_FREE, ORC_RIDGE_NODE, ORC_RIDGE_MAX, ORC_BORROW, ORC_BORROWED, ORC_SPILL_BASE, ORC_SPILL_SIZE, ORC_SPILL_FREE, ORC_PAGER, ORC_STATIC_C, ORC_STATIC_R, ORC_UNTRUST_C, ORC_QSEL, ORC_QINFO, ORC_CNT_ADMIT.._CE, ORC_EQ_HDR, ORC_EQ_DATA, ORC_EQ_STAT, ORC_DQ_SEL, ORC_DQ_TAG, ORC_DQ_DATA, ORC_CLS_NODE, ORC_CLS_MAX, PR_MIN, PR_XON, PR_XOFF, PR_MAX, PR_HOT, PR_STATIC, QD_CFG, QD_STAT. -/
def orchardRows : List RegRow := [
  { off := 0x0, spec := { rw := 0x3F07, guard := 0x3F06, en := 0x1 } },
  { off := 0x4 },
  { off := 0x8, spec := { w1c := 0x4000000 } },
  { off := 0xC, spec := { reset := 0xC000 } },
  { off := 0x10 },
  { off := 0x14, spec := { reset := 0xFFFFFFF, rw := 0xFFFFFFF } },
  { off := 0x18, spec := { reset := 0x20000800, rw := 0xFFFFFFFF } },
  { off := 0x1C },
  { off := 0x20, spec := { rw := 0xFFFFFF, guard := 0xFFFFFF } },
  { off := 0x24, spec := { rw := 0xFFFFFF, guard := 0xFFFFFF } },
  { off := 0x28 },
  { off := 0x2C, spec := { reset := 0x401000, rw := 0xFFFFFF, guard := 0xFFFFFF } },
  { off := 0x40, spec := { reset := 0x4000, rw := 0xFFFFFFF } },
  { off := 0x44, spec := { reset := 0x8000, rw := 0xFFFFFFF } },
  { off := 0x50 },
  { off := 0x70, spec := { rw := 0x3FFF } },
  { off := 0x74, stride := 0x4, count := 4 },
  { off := 0x90, stride := 0x4, count := 8, spec := { rc := 0xFFFFFFFF } },
  { off := 0x100, stride := 0x20, count := 16 },
  { off := 0x104, stride := 0x20, count := 16 },
  { off := 0x108, stride := 0x20, count := 16 },
  { off := 0x10C, stride := 0x20, count := 16, spec := { rw := 0xFFFF } },
  { off := 0x110, stride := 0x20, count := 16 },
  { off := 0x114, stride := 0x20, count := 16 },
  { off := 0x400, stride := 0x8, count := 32 },
  { off := 0x404, stride := 0x8, count := 32, spec := { reset := 0xFFFFFFF, rw := 0xFFFFFFF } },
  { off := 0x800, stride := 0x20, count := 64, spec := { rw := 0xFFFFFFF } },
  { off := 0x804, stride := 0x20, count := 64, spec := { reset := 0x400, rw := 0xFFFFFFF } },
  { off := 0x808, stride := 0x20, count := 64, spec := { reset := 0x800, rw := 0xFFFFFFF } },
  { off := 0x80C, stride := 0x20, count := 64, spec := { reset := 0x1000, rw := 0xFFFFFFF } },
  { off := 0x810, stride := 0x20, count := 64, spec := { reset := 0x200, rw := 0xFFFFFFF } },
  { off := 0x814, stride := 0x20, count := 64, spec := { reset := 0x100, rw := 0xFFFFFFF } },
  { off := 0x10000, stride := 0x8, count := 16384, spec := { rw := 0xFFFEFFFF, guard := 0x7FFEFFFF, en := 0x80000000 } },
  { off := 0x10004, stride := 0x8, count := 16384 }]

/-- Registers of the block: ORC_DEV_NODE, ORC_DEV_MAX, ORC_STATIC_D. -/
def orchardDeviceRows : List RegRow := [
  { off := 0xC0 },
  { off := 0xC4, spec := { reset := 0xFFFFFFF, rw := 0xFFFFFFF } },
  { off := 0xC8, spec := { reset := 0x10000, rw := 0xFFFFFFF } }]

/-- Registers of the block: RW_CFG, RW_DEAD, RW_DEAD_CAUSE, RW_FENCE0, RW_FENCE1, RW_STAT_SEL, RW_STAT_CTRL, RW_IST, RW_CNT_DISCARD.._HB. -/
def gatewayRows : List RegRow := [
  { off := 0x0, spec := { reset := 0x32, rw := 0xFF } },
  { off := 0x8 },
  { off := 0xC },
  { off := 0x10 },
  { off := 0x14 },
  { off := 0x20, spec := { rw := 0x3FF } },
  { off := 0x24, spec := { w1s := 0x1 } },
  { off := 0x40, stride := 0x4, count := 8 },
  { off := 0x80, stride := 0x4, count := 6, spec := { rc := 0xFFFFFFFF } }]

/-- Registers of the block: RW_CFG, RW_DEAD, RW_DEAD_CAUSE, RW_FENCE0, RW_FENCE1, RW_STAT_SEL, RW_STAT_CTRL, RW_IST, RW_CNT_DISCARD.._HB, RW_LINK_CE, RW_LINK_UE. -/
def hubRows : List RegRow := [
  { off := 0x0, spec := { reset := 0x32, rw := 0xFF } },
  { off := 0x8 },
  { off := 0xC },
  { off := 0x10 },
  { off := 0x14 },
  { off := 0x20, spec := { rw := 0x3FF } },
  { off := 0x24, spec := { w1s := 0x1 } },
  { off := 0x40, stride := 0x4, count := 8 },
  { off := 0x80, stride := 0x4, count := 6, spec := { rc := 0xFFFFFFFF } },
  { off := 0x100, stride := 0x8, count := 10, spec := { rc := 0xFFFFFFFF } },
  { off := 0x104, stride := 0x8, count := 10, spec := { rc := 0xFFFFFFFF } }]

/-- Registers of the block: RT_CNT_CE, RT_CNT_UE, RT_STAT. -/
def routerRows : List RegRow := [
  { off := 0x0, spec := { rc := 0xFFFFFFFF } },
  { off := 0x4, spec := { rc := 0xFFFFFFFF } },
  { off := 0x8 }]

/-- Registers of the block: TC_STAT, TC_CONT, TC_CONT_CNT, TC_BRAM_CE, TC_BRAM_UE, TC_BRAM_WW, TC_WIN_CFG, TC_WIN_TMO, TC_PLANE, TC_SCRUB. -/
def terraceRows : List RegRow := [
  { off := 0x0 },
  { off := 0x20, stride := 0x4, count := 4, spec := { w1c := 0xFFFFFFFF } },
  { off := 0x30, spec := { rc := 0xFFFFFFFF } },
  { off := 0x34, spec := { rc := 0xFFFFFFFF } },
  { off := 0x38, spec := { rc := 0xFFFFFFFF } },
  { off := 0x3C, spec := { rc := 0xFFFFFFFF } },
  { off := 0x40, spec := { reset := 0x100, rw := 0xFFFF } },
  { off := 0x44, spec := { rc := 0xFFFFFFFF } },
  { off := 0x8, spec := { reset := 0xF0 } },
  { off := 0x10, spec := { reset := 0x800A0000, rw := 0x80FF0000, w1c := 0x40000000 } }]

/-- Registers of the block: IO_BANK_STAT, IO_BANK_CFG, IO_PAD_IN, IO_PAD_OE, IO_PIN_CFG. -/
def bankRows : List RegRow := [
  { off := 0x0, spec := { w1c := 0x40000000 } },
  { off := 0x8 },
  { off := 0x10 },
  { off := 0x14 },
  { off := 0x100, stride := 0x4, count := 32 }]

/-- Registers of the block: CK_STAT, CK_CHECK, CK_XA_CFG, CK_XB_CFG, CK_TOL, CK_XAB_DIFF, CK_EVENT, CK_GATE_TOP, CK_GATE_T, CK_GATE_P, CK_GATE_Q0, CK_GATE_Q1, CK_GATE_DOB. -/
def clocksRows : List RegRow := [
  { off := 0x0, spec := { reset := 0x30000000 } },
  { off := 0x4 },
  { off := 0x8, spec := { reset := 0x10000000, rw := 0xF00FFFFF, guard := 0x700FFFFF, en := 0x80000000 } },
  { off := 0xC, spec := { reset := 0x10000000, rw := 0xF00FFFFF, guard := 0x700FFFFF, en := 0x80000000 } },
  { off := 0x10, spec := { reset := 0x64, rw := 0xFFFF } },
  { off := 0x14, spec := { reset := 0x80000000 } },
  { off := 0x18, spec := { w1c := 0x1F } },
  { off := 0x100, spec := { reset := 0x1F } },
  { off := 0x104, stride := 0x4, count := 4, spec := { reset := 0xFFFFFFFF } },
  { off := 0x114, spec := { reset := 0xFF } },
  { off := 0x118, spec := { reset := 0xFFFFFFFF } },
  { off := 0x11C, spec := { reset := 0xF } },
  { off := 0x120, spec := { reset := 0xFFFFFFFF } }]

/-- Registers of the block: CK_PLL_CTRL, CK_PLL_CHECK, CK_PLL_STAT, CK_PLL_FB, CK_PLL_DIV, CK_PLL_SSC, CK_PLL_SSC (EPLL), CK_PLL_FB (SPLL), CK_PLL_DIV (SPLL). -/
def pllsRows : List RegRow := [
  { off := 0x0, stride := 0x100, count := 16, spec := { reset := 0x30, rw := 0x3D, guard := 0x3C, en := 0x1 } },
  { off := 0x4, stride := 0x100, count := 16 },
  { off := 0x8, stride := 0x100, count := 16 },
  { off := 0xC, stride := 0x100, count := 15, spec := { rw := 0xFFFFFFFF, guard := 0xFFFFFFFF } },
  { off := 0x10, stride := 0x100, count := 15, spec := { rw := 0xFFFFFFFF, guard := 0xFFFFFFFF } },
  { off := 0x14, stride := 0x100, count := 8, spec := { rw := 0x3F } },
  { off := 0xE14, spec := { rw := 0x3F } },
  { off := 0xF0C },
  { off := 0xF10 }]

/-- Registers of the block: ENG_CTRL, ENG_STAT, ENG_PC, ENG_FAULT, ENG_FAULT_PC, ENG_FAULT_ADDR, ENG_IRQ_EN, ENG_IRQ_PEND, ENG_IRQ_SET, ENG_IVEC, ENG_WDOG_CFG, ENG_WDOG_CNT, ENG_CNT_INSTR/_STALL/_BANK/_REMOTE, ENG_RES. -/
def engineRows : List RegRow := [
  { off := 0x0, spec := { reset := 0x1, rw := 0x13 } },
  { off := 0x8 },
  { off := 0xC },
  { off := 0x10, spec := { w1c := 0x8000000 } },
  { off := 0x14 },
  { off := 0x18 },
  { off := 0x20, spec := { rw := 0xFFFF } },
  { off := 0x24, spec := { w1c := 0xFFFF } },
  { off := 0x28 },
  { off := 0x2C, spec := { rw := 0x3FE00 } },
  { off := 0x30, spec := { rw := 0xFFFF } },
  { off := 0x34 },
  { off := 0x40, stride := 0x4, count := 4, spec := { rc := 0xFFFFFFFF } },
  { off := 0x100, stride := 0x4, count := 7 }]

/-- Registers of the block: DSP_CTRL, DSP_CHECK, DSP_CHECK_THR, DSP_STAT, DSP_POST, DSP_SNAP_CTRL, DSP_CNT_POST.._RESTART, DSP_LVL_DEPTH, DSP_CH_BIND, DSP_CI_BIND, DSP_SNAP, TH_CFG, TH_ENTRY, TH_AFF, TH_ARG, TH_CTX, TH_STAT, FLOW word 0, FLOW word 1. -/
def dispatcherRows : List RegRow := [
  { off := 0x0, spec := { reset := 0x800, rw := 0xFF01, en := 0x1 } },
  { off := 0x4 },
  { off := 0x8 },
  { off := 0xC },
  { off := 0x10 },
  { off := 0x14, spec := { w1s := 0x3 } },
  { off := 0x20, stride := 0x4, count := 6, spec := { rc := 0xFFFFFFFF } },
  { off := 0x100, stride := 0x4, count := 32 },
  { off := 0x400, stride := 0x4, count := 144, spec := { rw := 0xF0001FFF } },
  { off := 0x800, stride := 0x4, count := 272, spec := { rw := 0xF0001FFF } },
  { off := 0x1000, stride := 0x4, count := 386 },
  { off := 0x10000, stride := 0x20, count := 8192, spec := { rw := 0xFFFF3FFF, guard := 0x7FFF3FFF, en := 0x80000000 } },
  { off := 0x10004, stride := 0x20, count := 8192, spec := { rw := 0x3FFFF, guard := 0x3FFFF } },
  { off := 0x10008, stride := 0x20, count := 8192, spec := { rw := 0x7FFF, guard := 0x7FFF } },
  { off := 0x1000C, stride := 0x20, count := 8192, spec := { rw := 0xFFFFFFFF } },
  { off := 0x10010, stride := 0x20, count := 8192, spec := { rw := 0xBF03FF00, guard := 0xBF03FF00 } },
  { off := 0x10014, stride := 0x20, count := 8192 },
  { off := 0x50000, stride := 0x8, count := 16384, spec := { rw := 0x8000003F } },
  { off := 0x50004, stride := 0x8, count := 16384 }]

/-- Registers of the block: PV_DSP_CFG, PV_DSP_STAT, PV_PWR. -/
def pavilionRows : List RegRow := [
  { off := 0x0, spec := { reset := 0xFF, rw := 0xFF } },
  { off := 0x4 },
  { off := 0x10, spec := { reset := 0x5 } }]

/-- Registers of the block: DR_CTRL, DR_CHECK, DR_STAT, DR_CFG, DR_TEMP, DR_CNT_CE.._REFPOST, DR_TRAIN_CTRL, DR_TRAIN_RES, DR_PAT, DR_CMP_CTRL, DR_CMP_RES, DR_DLY_RD, DR_DLY_WR, DR_VREF, DR_WIN_ADDR, DR_WIN_CMD, DR_WIN_D, DR_WIN_RES, DR_RETIRE. -/
def dramRows : List RegRow := [
  { off := 0x0, spec := { reset := 0x6, rw := 0x7, en := 0x1 } },
  { off := 0x4 },
  { off := 0x8, spec := { w1c := 0x6000000 } },
  { off := 0xC, spec := { reset := 0x518, rw := 0xF38, guard := 0xF38 } },
  { off := 0x10 },
  { off := 0x20, stride := 0x4, count := 4, spec := { rc := 0xFFFFFFFF } },
  { off := 0x40, spec := { w1s := 0x1 } },
  { off := 0x50, stride := 0x4, count := 4 },
  { off := 0x100, stride := 0x4, count := 16, spec := { rw := 0xFFFFFFFF } },
  { off := 0x140, spec := { rw := 0xFFFF000E, w1s := 0x1 } },
  { off := 0x144, stride := 0x4, count := 17 },
  { off := 0x200, stride := 0x4, count := 16, spec := { rw := 0x7F } },
  { off := 0x240, stride := 0x4, count := 16, spec := { rw := 0x7F } },
  { off := 0x280, spec := { rw := 0x7F7F } },
  { off := 0x400, spec := { rw := 0xFFFFFFC0 } },
  { off := 0x404 },
  { off := 0x440, stride := 0x4, count := 16, spec := { rw := 0xFFFFFFFF } },
  { off := 0x480, stride := 0x4, count := 19 },
  { off := 0x1000, stride := 0x4, count := 1024 }]

/-- Registers of the block: KS_LOADED, KS_INUSE, KS_CNT_LOAD, KS_KCV, ENC_STOP, ENC_STOP_ADDR, ENC_STOP_FP. -/
def keysRows : List RegRow := [
  { off := 0x8, stride := 0x4, count := 2 },
  { off := 0x10, stride := 0x4, count := 2 },
  { off := 0x20 },
  { off := 0x100, stride := 0x4, count := 64 },
  { off := 0x200, spec := { w1c := 0x80000000 } },
  { off := 0x204 },
  { off := 0x208, stride := 0x4, count := 2 }]

/-- Registers of the block: BF_STAT, BF_PROG, BF_SRC, BF_CMD, BF_CMD_ADDR, BF_CMD_RES, BF_BUF. -/
def flashRows : List RegRow := [
  { off := 0x0, spec := { w1c := 0x20000 } },
  { off := 0x8 },
  { off := 0xC, spec := { reset := 0xFFFFFFFF } },
  { off := 0x20 },
  { off := 0x24, spec := { rw := 0xFFFFFFFF } },
  { off := 0x40 },
  { off := 0x100, stride := 0x4, count := 64, spec := { rw := 0xFFFFFFFF } }]

/-- Registers of the block: LOG_STAT, LOG_NEWEST, LOG_OLDEST, LOG_INJECT, REL_CELL_RET, REL_PATROL. -/
def reliabilityRows : List RegRow := [
  { off := 0x0, spec := { w1c := 0x40000000 } },
  { off := 0x4 },
  { off := 0x8 },
  { off := 0xC },
  { off := 0x20, stride := 0x4, count := 4 },
  { off := 0x100, spec := { reset := 0xF00A0000, rw := 0xF0FF0000 } }]

/-- Registers of the block: BIST_STAT, MARCH_PROG, BIST_RES, MARCH_RES. -/
def bistRows : List RegRow := [
  { off := 0x0 },
  { off := 0x8 },
  { off := 0x100, stride := 0x4, count := 48 },
  { off := 0x200, stride := 0x4, count := 5 }]

/-- Registers of the block: BLV_TRC_CTRL, BLV_CHECK, BLV_TRC_STAT, BLV_TRC_SRC, BLV_TRC_ENG, BLV_TRC_TERR, BLV_TRC_PORT, BLV_TRC_CH, BLV_PEEK_ADDR, BLV_PEEK_CTRL, BLV_PEEK_RES, BLV_STIM, BLV_DBG_CTRL, BLV_ATTACH, BLV_HALT, BLV_STEP, BLV_RESUME, BLV_MON, BLV_ESEL, BLV_EREG_SEL, BLV_EREG_DATA, BLV_EPC, BLV_EVT, BLV_BKPT, BLV_WATCH, BLV_CAP_STAT, BLV_CAP_SEL, BLV_CAP_TINFO, BLV_CAP_FP, capture window. -/
def belvedereRows : List RegRow := [
  { off := 0x0, spec := { rw := 0xFFFFFFC1, guard := 0xFFFFFFC0, en := 0x1 } },
  { off := 0x4 },
  { off := 0x8 },
  { off := 0xC, spec := { rw := 0xC } },
  { off := 0x10, stride := 0x4, count := 2, spec := { rw := 0xFFFFFFFF } },
  { off := 0x18, stride := 0x4, count := 4, spec := { rw := 0xFFFFFFFF } },
  { off := 0x28, spec := { rw := 0x7FF } },
  { off := 0x2C, spec := { rw := 0x1FF } },
  { off := 0x40, spec := { rw := 0xFFFFFFFF } },
  { off := 0x44, spec := { w1s := 0x3 } },
  { off := 0x48, stride := 0x4, count := 3 },
  { off := 0x60, spec := { rw := 0xFFFFFFFF } },
  { off := 0x80, spec := { rw := 0x1 } },
  { off := 0x100, stride := 0x4, count := 2, spec := { rw := 0xFFFFFFFF } },
  { off := 0x108, stride := 0x4, count := 2 },
  { off := 0x110, stride := 0x4, count := 2 },
  { off := 0x118, stride := 0x4, count := 2 },
  { off := 0x120, stride := 0x4, count := 2 },
  { off := 0x200, spec := { rw := 0x3F } },
  { off := 0x204, spec := { rw := 0x7F } },
  { off := 0x208 },
  { off := 0x20C },
  { off := 0x210 },
  { off := 0x220, stride := 0x4, count := 4, spec := { rw := 0x8003FFFC } },
  { off := 0x230, stride := 0x4, count := 2, spec := { rw := 0xE003FFF8 } },
  { off := 0x300 },
  { off := 0x304, spec := { rw := 0x7F } },
  { off := 0x308 },
  { off := 0x310, stride := 0x4, count := 2 },
  { off := 0x4000, stride := 0x4, count := 2816 }]

/-- Registers of the block: MON_CTRL, MON_CHECK, MON_STAT, MON_ALARM, MON_TRIP, MON_IN_CFG, MON_IN_THR, MON_IN_CFG 32-54, MON_IN_THR 32-54, MON_RES, PWR_OP, PWR_T, PWR_P, PWR_Q0, PWR_Q1. -/
def monitorRows : List RegRow := [
  { off := 0x0, spec := { rw := 0x1, en := 0x1 } },
  { off := 0x4 },
  { off := 0x8, spec := { w1c := 0x40000000 } },
  { off := 0xC, stride := 0x4, count := 2, spec := { w1c := 0xFFFFFFFF } },
  { off := 0x14, spec := { reset := 0xF80, rw := 0xFFF } },
  { off := 0x1000, stride := 0x20, count := 24, spec := { reset := 0x1000000, rw := 0xFF00FFFF, guard := 0xFF00FFFF } },
  { off := 0x1004, stride := 0x20, count := 24, spec := { reset := 0xFFF0000, rw := 0xFFF0FFF } },
  { off := 0x1400, stride := 0x20, count := 23, spec := { reset := 0x1000000, rw := 0xFF00FFFF, guard := 0xFF00FFFF } },
  { off := 0x1404, stride := 0x20, count := 23, spec := { reset := 0xFFF0000, rw := 0xFFF0FFF } },
  { off := 0x2000, stride := 0x4, count := 440 },
  { off := 0x40000, spec := { w1c := 0x20000000 } },
  { off := 0x40010, stride := 0x4, count := 4, spec := { reset := 0xFFFFFFFF } },
  { off := 0x40020, spec := { reset := 0xFFF } },
  { off := 0x40024, spec := { reset := 0xFFFFFFFF } },
  { off := 0x40028, spec := { reset := 0xF } }]

/-- A block of the parameter space with its number (R73). Lanes and transmit presets are parts of a lane quad's
range; PLLs are a part of the clocks range. -/
inductive Place where
  | device | gatehouse | flash | clocks | plls | timebase | cairns
  | channel (n : Nat) | quad (q : Nat) | lane (l : Nat) | txPreset (l : Nat) | cistern (i : Nat)
  | orchard (r : Nat) | bankGroup (n : Nat)
  | hub | gateway (r : Nat) | router (w : Nat) | dram (d : Nat) | keys | engine (e : Nat)
  | dispatcher | pavilion (p : Nat) | reliability | bist | belvedere | monitor | bank (b : Nat)
  | window (t : Nat) | terrace (t : Nat) | scratchpad (e : Nat)
deriving DecidableEq, Repr

/-- A range of equal blocks: base, distance, bytes decoded of each, number. -/
def inRange (a base stride size n : Nat) : Option (Nat × Nat) :=
  if base ≤ a ∧ (a - base) / stride < n ∧ (a - base) % stride < size then
    some ((a - base) / stride, (a - base) % stride)
  else none

/-- The place and the offset within it that an address names (R73); none outside the space or misaligned (R74). -/
def placeOf (a : Nat) : Option (Place × Nat) :=
  if a % 4 ≠ 0 then none
  else if a < 0x10000 then some (.device, a)
  else if a < 0x18000 then some (.gatehouse, a - 0x10000)
  else if a < 0x20000 then some (.flash, a - 0x18000)
  else if a < 0x21000 then some (.clocks, a - 0x20000)
  else if a < 0x30000 then some (.plls, a - 0x21000)
  else if a < 0x40000 then some (.timebase, a - 0x30000)
  else if a < 0x50000 then some (.cairns, a - 0x40000)
  else if a < 0x200000 then (inRange a 0x100000 0x1000 0x1000 144).map (fun p => (.channel p.1, p.2))
  else if a < 0x300000 then
    match inRange a 0x200000 0x1000 0x1000 36 with
    | none => none
    | some (q, o) =>
      if 0x100 ≤ o ∧ o < 0x300 then some (.lane (4 * q + (o - 0x100) / 0x80), (o - 0x100) % 0x80)
      else if 0x300 ≤ o ∧ o < 0x400 then some (.txPreset (4 * q + (o - 0x300) / 0x40), (o - 0x300) % 0x40)
      else some (.quad q, o)
  else if a < 0x400000 then (inRange a 0x300000 0x100 0x100 272).map (fun p => (.cistern p.1, p.2))
  else if a < 0x500000 then
    match inRange a 0x400000 0x40000 0x40000 4 with
    | none => none
    | some (r, o) =>
      if o < 0x30000 then some (.orchard r, o)
      else some (.bankGroup (4 * r + (o - 0x30000) / 0x4000), (o - 0x30000) % 0x4000)
  else if a < 0x510000 then some (.hub, a - 0x500000)
  else if a < 0x580000 then (inRange a 0x510000 0x10000 0x10000 4).map (fun p => (.gateway p.1, p.2))
  else if a < 0x600000 then (inRange a 0x580000 0x1000 0x1000 64).map (fun p => (.router p.1, p.2))
  else if a < 0x700000 then (inRange a 0x600000 0x10000 0x10000 16).map (fun p => (.dram p.1, p.2))
  else if a < 0x800000 then some (.keys, a - 0x700000)
  else if a < 0xC00000 then (inRange a 0x800000 0x10000 0x10000 64).map (fun p => (.engine p.1, p.2))
  else if a < 0xC80000 then some (.dispatcher, a - 0xC00000)
  else if a < 0xD00000 then (inRange a 0xC80000 0x1000 0x1000 8).map (fun p => (.pavilion p.1, p.2))
  else if a < 0xE00000 then some (.reliability, a - 0xD00000)
  else if a < 0xE80000 then some (.bist, a - 0xE00000)
  else if a < 0xF00000 then some (.belvedere, a - 0xE80000)
  else if a < 0xF80000 then some (.monitor, a - 0xF00000)
  else if a < 0x1000000 then (inRange a 0xF80000 0x1000 0x1000 13).map (fun p => (.bank p.1, p.2))
  else if a < 0x10000000 then
    match inRange a 0x1000000 0x20000 0x20000 128 with
    | none => none
    | some (t, o) => if o < 0x1F000 then some (.window t, o) else some (.terrace t, o - 0x1F000)
  else (inRange a 0x10000000 0x40000 0x40000 64).map (fun p => (.scratchpad p.1, p.2))

/-- The register rows of a place. -/
def rowsOf : Place → List RegRow
  | .device => deviceRows
  | .gatehouse => gatehouseRows
  | .flash => flashRows
  | .clocks => clocksRows
  | .plls => pllsRows
  | .timebase => timebaseRows
  | .cairns => cairnsRows
  | .channel _ => channelRows
  | .quad _ => quadRows
  | .lane _ => laneRows
  | .txPreset _ => txPresetRows
  | .cistern _ => cisternRows
  | .orchard r => if r = 0 then orchardRows ++ orchardDeviceRows else orchardRows
  | .bankGroup _ => []
  | .hub => hubRows
  | .gateway _ => gatewayRows
  | .router _ => routerRows
  | .dram _ => dramRows
  | .keys => keysRows
  | .engine _ => engineRows
  | .dispatcher => dispatcherRows
  | .pavilion _ => pavilionRows
  | .reliability => reliabilityRows
  | .bist => bistRows
  | .belvedere => belvedereRows
  | .monitor => monitorRows
  | .bank _ => bankRows
  | .window _ => []
  | .terrace _ => terraceRows
  | .scratchpad _ => []

/-- The masks of the register at an offset of a place; a reserved word has none (R75). -/
def specIn (p : Place) (o : Nat) : RegSpec :=
  let found := (rowsOf p).find? (fun r =>
    decide (r.off ≤ o ∧ (o - r.off) % r.stride = 0 ∧ (o - r.off) / r.stride < r.count))
  let spec := (found.map (fun r => r.spec)).getD {}
  match p with
  | .cistern i =>
    -- IN_W, SRC and EN of a receive Cistern are RO (CIS_CTRL)
    if i < 144 ∧ o = 0 then { spec with rw := spec.rw &&& ~~~(0xE1 : Word), guard := spec.guard &&& ~~~(0xE0 : Word), en := 0 }
    else spec
  | _ => spec

/-- The masks of the register at an address. -/
def specAt (a : Nat) : RegSpec :=
  match placeOf a with
  | some (p, o) => specIn p o
  | none => {}

/-- What a register holds at reset: its Reset column (R78). -/
def resetWord (a : Nat) : Word := (specAt a).reset

/-- The target block ID that owns a place, beside 0x0000 (R73); none where the owner column shows none. -/
def ownerOf : Place → Option Nat
  | .device => some 0x0000
  | .gatehouse => some 0x0001
  | .flash => some 0x000C
  | .clocks => some 0x0002
  | .plls => some 0x0002
  | .timebase => some 0x0003
  | .cairns => some 0x0004
  | .channel n => some (0x1800 + n)
  | .quad q => some (0x1400 + q)
  | .lane l => some (0x1400 + l / 4)
  | .txPreset l => some (0x1400 + l / 4)
  | .cistern i => some (0x1C00 + i)
  | .orchard _ => none
  | .bankGroup n => some (0x2400 + n)
  | .hub => some 0x0005
  | .gateway r => some (0x0400 + r)
  | .router w => some (0x2800 + w)
  | .dram d => some (0x2000 + d)
  | .keys => some 0x0006
  | .engine e => some (0x1000 + e)
  | .dispatcher => some 0x0007
  | .pavilion p => some (0x0C00 + p)
  | .reliability => some 0x0008
  | .bist => some 0x0009
  | .belvedere => some 0x000A
  | .monitor => some 0x000B
  | .bank b => some (0x2C00 + b)
  | .window t => some (0x0800 + t)
  | .terrace t => some (0x0800 + t)
  | .scratchpad e => some (0x1000 + e)

/-- Base addresses of the blocks (R73). -/
def aCh (n : Nat) : Nat := 0x100000 + 0x1000 * n
def aQuad (q : Nat) : Nat := 0x200000 + 0x1000 * q
def aLane (l : Nat) : Nat := 0x200100 + 0x1000 * (l / 4) + 0x80 * (l % 4)
def aTxPre (l s : Nat) : Nat := 0x200300 + 0x1000 * (l / 4) + 0x40 * (l % 4) + 4 * s
def aCis (i : Nat) : Nat := 0x300000 + 0x100 * i
def aOrc (r : Nat) : Nat := 0x400000 + 0x40000 * r
def aQueue (q : Nat) : Nat := 0x410000 + 0x40000 * (q / 16384) + 8 * (q % 16384)
def aProfile (r p : Nat) : Nat := 0x400800 + 0x40000 * r + 0x20 * p
def aWin (r w : Nat) : Nat := 0x400100 + 0x40000 * r + 0x20 * w
def aGw (r : Nat) : Nat := 0x510000 + 0x10000 * r
def aRtr (w : Nat) : Nat := 0x580000 + 0x1000 * w
def aDram (d : Nat) : Nat := 0x600000 + 0x10000 * d
def aEng (e : Nat) : Nat := 0x800000 + 0x10000 * e
def aThread (t : Nat) : Nat := 0xC10000 + 32 * t
def aFlow (f : Nat) : Nat := 0xC50000 + 8 * f
def aPav (p : Nat) : Nat := 0xC80000 + 0x1000 * p
def aBank (b : Nat) : Nat := 0xF80000 + 0x1000 * b
def aTerr (t : Nat) : Nat := 0x101F000 + 0x20000 * t
def aPll (p : Nat) : Nat := 0x21000 + 0x100 * p
def aMonCfg (i : Nat) : Nat := 0xF01000 + 0x20 * i
def aMonRes (i : Nat) : Nat := 0xF02000 + 0x20 * i
def aSpad (e : Nat) : Nat := 0x10000000 + 0x40000 * e

end Sys2Proof.Machine
end

