-- ==== Sys2Proof/Machine/Table.lean ====
section
/-!
DEFINITION. Sparse tables in one canonical form: pairs of a key and a value with strictly rising keys, none equal to
what an unlisted key reads as. The registers, memories and unit records of the state are tables of this form.
-/
namespace Sys2Proof.Machine

/-- A sparse table (see `Table.wf`). -/
abbrev Table (α : Type) := List (Nat × α)

variable {α : Type}

/-- What the table holds under a key: the listed value, else the default `d k`. -/
def Table.get (d : Nat → α) : Table α → Nat → α
  | [], i => d i
  | (k, v) :: t, i => if i = k then v else Table.get d t i

/-- The table without a key. -/
def Table.erase : Table α → Nat → Table α
  | [], _ => []
  | (k, v) :: t, i => if i = k then Table.erase t i else (k, v) :: Table.erase t i

/-- The table with `v` listed under key `i`, in its place. -/
def Table.insert : Table α → Nat → α → Table α
  | [], i, v => [(i, v)]
  | (k, w) :: t, i, v =>
    if i < k then (i, v) :: (k, w) :: t
    else if i = k then (i, v) :: t
    else (k, w) :: Table.insert t i v

/-- Write: a value equal to the default removes the entry, so that equal contents are equal tables. -/
def Table.set [DecidableEq α] (d : Nat → α) (t : Table α) (i : Nat) (v : α) : Table α :=
  if v = d i then Table.erase t i else Table.insert t i v

/-- Every key of the table is above `n`. -/
def Table.above (n : Nat) : Table α → Bool
  | [] => true
  | (k, _) :: t => decide (n < k) && Table.above n t

/-- The canonical form: strictly rising keys, no entry equal to its default. -/
def Table.wf [DecidableEq α] (d : Nat → α) : Table α → Bool
  | [] => true
  | (k, v) :: t => decide (v ≠ d k) && Table.above k t && Table.wf d t

/-- Change the value under a key. -/
def Table.modify [DecidableEq α] (d : Nat → α) (t : Table α) (i : Nat) (f : α → α) : Table α :=
  Table.set d t i (f (Table.get d t i))

/-- The entries whose key and value satisfy a test. -/
def Table.keep (t : Table α) (p : Nat → α → Bool) : Table α :=
  t.filter (fun e => p e.1 e.2)

/-- How many listed entries satisfy a test. -/
def Table.count (t : Table α) (p : Nat → α → Bool) : Nat :=
  (Table.keep t p).length

/-- Change every listed entry; entries that become their default are dropped. -/
def Table.mapAll [DecidableEq α] (d : Nat → α) : Table α → (Nat → α → α) → Table α
  | [], _ => []
  | (k, v) :: t, f =>
    if f k v = d k then Table.erase (Table.mapAll d t f) k else (k, f k v) :: Table.mapAll d t f

/-- A key is listed. -/
def Table.has (t : Table α) (i : Nat) : Bool := t.any (fun e => decide (e.1 = i))

/-- Write consecutive keys from `i`. -/
def Table.setList [DecidableEq α] (d : Nat → α) (t : Table α) (i : Nat) : List α → Table α
  | [] => t
  | v :: vs => Table.setList d (Table.set d t i v) (i + 1) vs

/-- Read `n` consecutive keys from `i`. -/
def Table.getList (d : Nat → α) (t : Table α) (i n : Nat) : List α :=
  (List.range n).map (fun k => Table.get d t (i + k))

end Sys2Proof.Machine
end

