-- ==== Sys2Proof/Machine/State.lean ====
section
/-!
DEFINITION. The state of the device, as plain data: the registers of the parameter space, the units behind them, and
the queue of waiting commands. Times are picoseconds since power-good. Every table's default is the unit's reset record.
-/
namespace Sys2Proof.Machine

/-- The current operating mode or state (R18, R97). No other code exists. -/
inductive Mode where
  | boot | staging | service | maintain | holdover | degraded | drain | stop
deriving DecidableEq, Repr

/-! ### Gatehouse -/

/-- A packet the Gatehouse has accepted and is carrying out (R47, R50); `begun` once it has acted and waits for an event. -/
structure Running where
  op : Nat
  hdr : Hdr
  params : List Word
  crc : Word
  begun : Bool := false
  /-- The time of acceptance (R69). -/
  acceptedAt : Nat := 0
deriving DecidableEq, Repr

/-- A reply: the packet's opcode, status, reason, tag, target echo and data words (R48, R52). -/
structure Held where
  opcode : Byte := 0
  status : Byte := 0
  reason : Byte := 0
  tag : BitVec 16 := 0
  target : BitVec 16 := 0
  data : List Word := []
deriving DecidableEq, Repr

/-- One entry of the replay cache (R56). -/
structure CacheEntry where
  tag : BitVec 16
  crc : Word
  reply : Held
deriving DecidableEq, Repr

/-- An open DEBUG_AUTH challenge (R511-R513). -/
structure Challenge where
  level : Nat
  data : List Word
  closesAt : Nat
deriving DecidableEq, Repr

/-- The port state before the last WRITE_PACKET, which an early transaction sees (R46). -/
structure PortView where
  held : Held := {}
  stat : Word := 0x8000
  info : Word := 0
deriving DecidableEq, Repr

/-- What is left of a host access that user logic of a fabric window answers word by word (R67, R305): a single
read or write, a PARAM_MODIFY, or a block with its next address, the values still to write or the words still to
read, and the words read or the count written so far. -/
inductive HostAccess where
  | one
  | modify (mask value : Word)
  | modified (old : Word)
  | readBlock (addr left : Nat) (got : List Word)
  | writeBlock (addr : Nat) (left : List Word) (done : Nat)
deriving DecidableEq, Repr

/-- The Gatehouse and its port (Command Port and Command Packets). -/
structure Gatehouse where
  ready : Bool := false
  running : Option Running := none
  held : Held := {}
  cache : List CacheEntry := []
  lastStatus : Byte := 0
  lastReason : Byte := 0
  badFrames : Nat := 0
  alert : Bool := false
  auth : Nat := 0
  wdog : Nat := 0
  before : PortView := {}
  /-- CPORT_ALERT_N has fallen since the last packet was written (R46). -/
  raised : Bool := false
  portOut : List Word := []
  challenge : Option Challenge := none
  challengeCount : Nat := 0
  lockoutEnd : Option Nat := none
deriving DecidableEq, Repr

/-- One error log entry: eight words (R502). -/
structure LogEntry where
  seq : Nat
  words : List Word
deriving DecidableEq, Repr

/-- Corrected-error suppression of a block (R503). -/
structure Suppress where
  startedAt : Nat := 0
  active : Bool := false
  missed : Nat := 0
deriving DecidableEq, Repr

/-- The error log (R502-R507), oldest entry first. -/
structure Log where
  entries : List LogEntry := []
  newest : Nat := 0
  lost : Nat := 0
  suppress : Table Suppress := []
deriving DecidableEq, Repr

/-! ### Timebase and Cairns -/

/-- A frame reference input (R106, R107, R118): `run` good intervals between pulses up to the last one, which rose at
`pulse`; `lastRise` the last edge that was where it was expected, `absent` the expected edges missed since. -/
structure FrameInput where
  qualified : Bool := false
  run : Nat := 0
  pulse : Option Nat := none
  lastRise : Option Nat := none
  absent : Nat := 0
  lastMarker : Option Nat := none
deriving DecidableEq, Repr

/-- A span of the loop's rate since a time (R112). -/
structure RateSpan where
  since : Nat
  rate : Int
  locked : Bool
deriving DecidableEq, Repr

/-- What the frame loop is doing (R109-R113): free at nominal rate, waiting for a superframe marker, pulling
toward the reference, or in holdover. -/
inductive LoopState where
  | free | stepWait | tracking | holdover
deriving DecidableEq, Repr

/-- The timebase. Device Time is in units of 2^-40 ns; the Frame Position is a count of phase steps
(superframe x 16,000 x 65,536 + frame x 65,536 + phase) with `fpAcc` its fraction over `10^6 x 2^40` (R100, R101). -/
structure Timebase where
  devTime : Nat := 0
  addend : Nat := 0x020000000000
  fp : Nat := 0
  fpAcc : Nat := 0
  sfNum : Nat := 0
  sfTime : Nat := 0
  loop : LoopState := .free
  lock : Bool := false
  freqTerm : Int := 0
  rate : Int := 0
  phaseErr : Int := 0
  inCount : Nat := 0
  outCount : Nat := 0
  history : List RateSpan := []
  inUse : Option Nat := none
  lastUsed : Nat := 0
  refLost : Bool := false
  inA : FrameInput := {}
  inB : FrameInput := {}
  watched : Bool := false
deriving DecidableEq, Repr

/-- A Cairn slot (R124-R128): its four words, the targets it is armed at, committed, bound (PLANE and CAPTURE). -/
structure Cairn where
  sf : Word := 0
  fp : Word := 0
  act : Word := 0
  rep : Word := 0
  armed : List Nat := []
  armedAll : Bool := false
  committed : Bool := false
  bound : Bool := false
deriving DecidableEq, Repr

/-- A Cairn event record (R137). -/
structure EventRecord where
  w0 : Word
  w1 : Word
  w2 : Word
deriving DecidableEq, Repr

/-- A stamp record's content (R120): status bits, Device Time (96 bits) and Frame Position (64 bits). -/
structure Stamp where
  dir : Bool
  lost : Bool
  seq : BitVec 16
  time : BitVec 96
  fp : BitVec 64
deriving DecidableEq, Repr

/-- A stamp source (R120). -/
structure StampSource where
  queue : List Stamp := []
  lost : Bool := false
  count : BitVec 16 := 0
deriving DecidableEq, Repr

/-! ### Lanes and channels -/

/-- The ladder states (R146). -/
inductive Ladder where
  | off | announce | agree | switch | train | verify | fallback | run | hold | loop
deriving DecidableEq, Repr

/-- A lane (R146-R163). `rung` is the step to switch to; `prop` the rung its own PROPOSE carries, none for DONE;
`own` the capability word sent; `further` the end of the 16 further blocks of R579; `returning` the second part of
FALLBACK, toward the last good rung `back`; `cut` the lowest rung removed from the common set (R145); `retunedAt` the last
retune (R141); `ownSince` and `disp` when the word sent began and the running disparity there (R143); `gen`, `chk` and
`chkFill` the PRBS generator's bits, the checker's and how many it has taken (R155). -/
structure Lane where
  st : Ladder := .off
  step : Nat := 0
  rung : Nat := 0
  prop : Option Nat := none
  own : Word := 0
  enteredAt : Nat := 0
  lock : Bool := false
  sig : Bool := false
  synth : Bool := false
  adapt : Bool := false
  loopKind : Nat := 0
  loopStep : Nat := 0
  loopReturn : Ladder := .off
  heldStep : Nat := 0
  cap : Word := 0
  heard : Bool := false
  count : Nat := 0
  lastValid : Nat := 0
  sendDone : Bool := false
  windowClean : Bool := false
  windowStart : Nat := 0
  further : Option Nat := none
  back : Option Nat := none
  returning : Bool := false
  climbStart : Nat := 0
  cut : Nat := 11
  passed : List Nat := []
  failedRung : Nat := 15
  restarts : Nat := 0
  noPartner : Bool := false
  eq : List Word := [0, 0, 0, 0]
  alignStart : Nat := 0
  boundary : Nat := 0
  straddle : Bool := false
  retunedAt : Nat := 0
  ownSince : Nat := 0
  disp : Bool := false
  /-- Ladder blocks are on the line (R143). -/
  sending : Bool := false
  /-- The synthesiser has not locked since its last retune (R141). -/
  retuning : Bool := false
  gen : BitVec 31 := 0x7FFFFFFF
  chk : BitVec 31 := 0
  chkFill : Nat := 0
deriving DecidableEq, Repr

/-- An eye scan running in a quad (R157). -/
structure Scan where
  lane : Nat
  phase : Word
  volt : Word
  dwell : Nat
  step : Nat
  startedAt : Nat
deriving DecidableEq, Repr

/-- A frame in a launch queue (R199); one not complete is being written through the queue's window. -/
structure LaunchFrame where
  len : Nat
  bytes : List Byte
  complete : Bool
deriving DecidableEq, Repr

/-- A transmitted DATA frame as sent, kept for retry (R177). -/
structure TxFrame where
  seq : BitVec 16
  header : Word64
  payload : List Word64
  trailer : Word64
deriving DecidableEq, Repr

/-- The transmitter's stream where its next word begins, at time `at_`: running disparity (R166), scrambler (R167), and on
scramble-and-stuff the next block count, scrambler, run of equal bits and words left in the block (R169-R171). -/
structure TxLine where
  at_ : Nat := 0
  disp : Bool := false
  scr : BitVec 58 := 0
  bc : BitVec 16 := 0
  seed : BitVec 31 := 0
  run : Nat := 0
  last : Bool := false
  left : Nat := 0
deriving DecidableEq, Repr

/-- A channel's received stream (R166-R173): the running disparity of 8b/10b, the descrambler of 64b/66b; of a scramble-and-stuff
block the scrambler, the run and its last bit, and the channel words still to come of it, none before a first sync word; bits that do
not make up a word yet; and whether words are discarded up to the next idle word (R175). -/
structure RxLine where
  disp : Bool := false
  scr : BitVec 58 := 0
  seed : BitVec 31 := 0
  run : Nat := 0
  last : Bool := false
  left : Option Nat := none
  bits : List Bool := []
  skip : Bool := false
deriving DecidableEq, Repr

/-- A frame being received (R206, R212): its header, when its first bit came, the payload words so far, whether CIn takes it, a
coding error in it. -/
structure RxOpen where
  header : Word64
  at_ : Nat := 0
  words : List Word64 := []
  admitted : Bool := false
  bad : Bool := false
deriving DecidableEq, Repr

/-- A channel's transmit and receive state (R165-R201). -/
structure Channel where
  retired : Bool := false
  scanOk : Bool := false
  sync : Bool := false
  subst : Bool := false
  subFor : Nat := 0xFF
  replacedBy : Option Nat := none
  index : Nat := 0
  switching : Option Nat := none
  runSince : Nat := 0
  txSeq : BitVec 16 := 0
  buffer : List TxFrame := []
  round : List TxFrame := []
  control : List Word64 := []
  lastAck : BitVec 16 := 0xFFFF
  advancedAt : Nat := 0
  txEnd : Nat := 0
  txLaunch : Bool := false
  sent : List Word64 := []
  line : TxLine := {}
  bits : List Bool := []
  rx : Option RxOpen := none
  rxLine : RxLine := {}
  rxExpect : BitVec 16 := 0
  ackSeq : BitVec 16 := 0xFFFF
  nakAt : Option Nat := none
  sinceAck : Nat := 0
  firstUnacked : Option Nat := none
  lastSent : Nat := 0
  retryTimes : List Nat := []
  lastEnd : Nat := 0
  launch : Table (List LaunchFrame) := []
  blockCount : BitVec 16 := 0
  goodSync : Nat := 0
  badSync : Nat := 0
  markFrame : Option Nat := none
  markAt : Nat := 0
  delay : Nat := 0
  /-- What the deskew buffer holds the channel's words back by, ps (R196). -/
  deskew : Nat := 0
  markSent : Option Nat := none
deriving DecidableEq, Repr

/-! ### Cisterns and the Orchard -/

/-- A frame held in a Cistern (R204-R213): bytes written and not withdrawn, bytes delivered, closed, ABORT, known
length, shown to the consumer; lines of it, by place in the frame, that hold an error nothing has met yet (R218, R484). -/
structure CisFrame where
  bytes : List Byte := []
  taken : Nat := 0
  begun : Bool := false
  closed : Bool := false
  abort : Bool := false
  len : Nat := 0
  shown : Bool := false
  weak : List (Nat × Upset) := []
deriving DecidableEq, Repr

/-- A READ of CIS_RD_TAG held for STALL (R215), with the time of the last HOLDING sent for it (R259). -/
structure HeldRead where
  pkt : RwPkt
  until_ : Nat
  toldAt : Nat := 0
deriving DecidableEq, Repr

/-- A Cistern. -/
structure Cistern where
  frames : List CisFrame := []
  dropping : Bool := false
  flushing : Bool := false
  resetting : Bool := false
  skipping : Bool := false
  abortOwed : Bool := false
  sinceEnd : Nat := 0
  held : List HeldRead := []
deriving DecidableEq, Repr

/-- A frame stored in an Orchard queue: bytes; for each of its cells the ridge whose pool it comes from, or 4 while it
lies in DRAM; ABORT; bytes delivered; cells released; cells whose data read uncorrectable; cells that hold an error nothing
has met yet (R253, R484). -/
structure OFrame where
  bytes : List Byte
  cells : List Nat
  abort : Bool := false
  taken : Nat := 0
  freed : Nat := 0
  badCells : List Nat := []
  weak : List (Nat × Upset) := []
deriving DecidableEq, Repr

/-- Who consumes a queue (R224). -/
inductive Consumer where
  | window (r w : Nat)
  | port (t : Nat)
deriving DecidableEq, Repr

/-- An Orchard queue (R222-R253): frames in order, its node, its pages in DRAM in order (spill page number), whether it
spills (R239), flags, fallback counter, owner, time of the last dequeue, a wait of its sink already counted. -/
structure OQueue where
  frames : List OFrame := []
  node : Nat := 0
  pages : List Nat := []
  spilling : Bool := false
  xoff : Bool := false
  fault : Bool := false
  untrust : Bool := false
  fallback : Nat := 0
  owner : Option Consumer := none
  lastOut : Nat := 0
  stalled : Bool := false
deriving DecidableEq, Repr

/-- A class, ridge or device node (R229, R250). -/
structure CNode where
  count : Nat := 0
  untrust : Bool := false
  fallback : Nat := 0
deriving DecidableEq, Repr

/-- An engine window of the Orchard (R247). -/
structure OWindow where
  queue : Nat := 0
  len : Nat := 0
  bytes : List Byte := []
  cells : List Nat := []
  opened : Bool := false
  cause : Byte := 0
deriving DecidableEq, Repr

/-- A source held at an admission decision, with the cells its frame already has (R234). -/
structure HeldSource where
  src : OrcSource
  queue : Nat
  cells : List Nat
deriving DecidableEq, Repr

/-- A frame that a Cistern is still feeding into a queue; `discard` while its rest is dropped (R231, R234). -/
structure OpenFeed where
  queue : Nat := 0
  bytes : List Byte := []
  cells : List Nat := []
  discard : Bool := false
deriving DecidableEq, Repr

/-- A ridge's retired cells and its spill pages in use. -/
structure ORidge where
  retiredCells : Nat := 0
  spillUsed : List Nat := []
deriving DecidableEq, Repr

/-- The Orchard: queues, nodes (key: ridge x 32 + class; ridge; device), windows (ridge x 16 + window), ridges, held
sources, open feeds by Cistern, the page requests in the order in which they arose, the untrusted nodes with the one
under audit first and whether their old count can be recovered. -/
structure Orchard where
  queues : Table OQueue := []
  classes : Table CNode := []
  ridgeNodes : Table CNode := []
  device : CNode := {}
  windows : Table OWindow := []
  ridges : Table ORidge := []
  held : List HeldSource := []
  feeds : Table (Option OpenFeed) := []
  fetchWait : List Nat := []
  spillWait : List Nat := []
  audits : List (TreeNode × Bool) := []
deriving DecidableEq, Repr

/-! ### Ridgeway -/

/-- What an unacknowledged packet was sent for (R350). -/
inductive RwUse where
  | load (rd : Nat)
  | store
  | posted
  | other
deriving DecidableEq, Repr

/-- An unacknowledged request packet at its initiator (R265, R267); `eng` is the engine that waits for it or posted it. -/
structure Outstanding where
  pkt : RwPkt
  use : RwUse
  eng : Option Nat
  sentAt : Nat
  firstAt : Nat
  rounds : Nat := 0
deriving DecidableEq, Repr

/-- A target's record of an initiator: next expected number and the stored responses (R265, R266). -/
structure TargetSeries where
  expect : BitVec 16 := 0
  stored : List RwPkt := []
deriving DecidableEq, Repr

/-- The statistics of an initiator port (R275). -/
structure PortStats where
  requests : Nat := 0
  flits : Nat := 0
  completed : Nat := 0
  latencySum : Nat := 0
  latencyMax : Nat := 0
  resent : Nat := 0
  errors : Nat := 0
deriving DecidableEq, Repr

/-- A router as its gateway sees it (R269, R270): consecutive heartbeats missed and the time of the last, the times of
packets discarded at each input in the last millisecond, the cause of its isolation. -/
structure Router where
  dead : Bool := false
  cause : Nat := 0
  switching : Bool := false
  missed : Nat := 0
  missedAt : Nat := 0
  discards : List (Nat × Nat) := []
deriving DecidableEq, Repr

/-- A request that a window port holds, and when it was taken or the last HOLDING for it was sent (R259). -/
structure RwHold where
  pkt : RwPkt
  toldAt : Nat
deriving DecidableEq, Repr

/-- A fence of a domain (R272, R273): none, closed and draining, or acknowledged. -/
inductive Fence where
  | opened | closing | closed
deriving DecidableEq, Repr

/-- The Ridgeway. Series are keyed by initiator port x 1,024 + target port; fences by domain block ID. `air` are the packets
on the network, requests and responses, oldest first (R258); `turned` the answers among them that the network itself has given
on a path that is cut (R270, R271); `waiting` the requests of ports without room (R265); `holding`
the requests a window port holds. -/
structure Ridgeway where
  nextSeq : Table (BitVec 16) := []
  outstanding : List Outstanding := []
  targets : Table TargetSeries := []
  air : List RwPkt := []
  turned : List RwPkt := []
  waiting : List RwPkt := []
  holding : List RwHold := []
  stats : Table PortStats := []
  routers : Table Router := []
  fences : Table Fence := []
  cutGateways : List Nat := []
  cutLinks : List Nat := []
  cutHub : List Nat := []
deriving DecidableEq, Repr

/-! ### Fabric, pads, clocks -/

/-- Who waits for the answer to a fabric window request or a held DSP_POST write: the host's command, a Ridgeway packet, a
packet whose MODIFY has read its old value, a Belvedere peek, or no one. -/
inductive WinReply where
  | host (k : HostAccess)
  | packet (p : RwPkt)
  | modified (p : RwPkt) (old : Word)
  | peek
  | nobody
deriving DecidableEq, Repr

/-- A request at a fabric window port (R305). -/
structure WinRequest where
  addr : Nat
  write : Bool
  peek : Bool
  data : Word
  reply : WinReply
deriving DecidableEq, Repr

/-- A frame of the plane in force with an uncorrectable word, whose bay is held (R493): the bay, the location as logged, and
whether no source could restore it. -/
structure LostFrame where
  bay : Nat
  loc : Word
  noSource : Bool := false
deriving DecidableEq, Repr

/-- The configuration scrubber of a terrace (R491): the frame it reads next, 0-4607 of the plane in force and 4608-9215 of the
shadow plane, the ps since its last read, and the frame it reads in the present clock. -/
structure Scrubber where
  next : Nat := 0
  since : Nat := 0
  reads : Option Nat := none
deriving DecidableEq, Repr

/-- A terrace. `plane` is the plane in force; sources 0 base, 1-8 overlay, 15 none (TC_PLANE); `heldBay` the bay of a repair
hold, which has ended at `heldUntil` whatever else (R492). -/
structure Terrace where
  configured : Bool := false
  started : Bool := false
  plane : Bool := false
  shadowOk : Bool := false
  activeSrc : Nat := 0
  activeImage : Word := 0
  shadowSrc : Nat := 15
  shadowImage : Word := 0
  switches : Nat := 0
  stagingShadow : Bool := false
  config : List Word := []
  shadow : List Word := []
  bramSec : List Word := []
  /-- The TERRACE section that an open base load has written into plane 0 (R451). -/
  arrived : List Word := []
  heldBay : Option Nat := none
  heldUntil : Nat := 0
  lost : List LostFrame := []
  scrub : Scrubber := {}
  lastBay : Nat := 0
  /-- When holds of the last microsecond began, by bay (R492). -/
  holdStarts : List (Nat × Nat) := []
  window : List WinRequest := []
  windowSince : Nat := 0
  releaseDue : Bool := false
  restoring : Bool := false
  /-- The plane before a switch, the clock lines that have not had their first edge since it, and whether none has (R478). -/
  old : List Word := []
  late : List Nat := []
  waits : Bool := false
  /-- The locations of repairs that wait (R492, R495). -/
  repairs : List Word := []
deriving DecidableEq, Repr

/-- A port of a block memory (R299-R302): the word read and its CE and UE, and the output register behind them. -/
structure MemPort where
  q : List Word64 := []
  ce : Bool := false
  ue : Bool := false
  out : List Word64 := []
  outCe : Bool := false
  outUe : Bool := false
deriving DecidableEq, Repr

/-- The enable of a user-gated clock line (R342): in force, and its changes still on their way, each with the edges of the
line's source until it acts, oldest first. -/
structure LineGate where
  on : Bool := true
  due : List (Nat × Bool) := []
deriving DecidableEq, Repr

/-- The user logic of a configured terrace (R276-R302): flip-flop FA of cell c at bit 2c and FB at 2c + 1, the 48 slices,
the 64 memory ports, the enables of its Spine drivers, the edges of each clock line since a release (R460), the outputs that
held bays keep (R309: O6, O5, sum and carry-out of each cell, by bay), the strobe lines that are 1, the line enables (R342), of
each block memory the clocks its scrub port has counted, of 65,536, and the address it reads now (R496), the stage 1 outputs a
gated terrace keeps for its Spurs and Spine drivers (R339), and the pressure port: its lookups, each with the clocks until it
answers, and its last answer (R233). -/
structure UserLogic where
  live : Bool := false
  ff : BitVec 65536 := 0
  slices : List FabricCell.Slice := []
  ports : List MemPort := []
  spines : BitVec 128 := 0
  edges : List Nat := []
  heldOut : Table (List Bool) := []
  strobes : List Nat := []
  gates : List LineGate := []
  scrub : List (Nat × Option Nat) := []
  spurKept : Table (Option Bool) := []
  asks : List (Nat × Nat) := []
  pressure : Bool := false
deriving DecidableEq, Repr

/-- A pin's serialiser and deserialiser (R315, R316): the word being sent since a time, the word before it and the output
enable, the word last received, and the words received so far. -/
structure Pad where
  live : Bool := false
  sent : List Bool := []
  sentAt : Nat := 0
  before : List Bool := []
  enable : Bool := false
  got : List Bool := []
  words : Nat := 0
deriving DecidableEq, Repr

/-- A pin: its configuration word of the plane in force (IO_PIN_CFG without bits 15-13), the overlay that owns it
(0 the base), its Cairn bits, the deserialiser's boundary moves (R316, R317, R468), and the word and overlay that it takes at the
next edge of its bank clock (R320). -/
structure Pin where
  cfg : Word := 0
  src : Nat := 0
  configured : Bool := false
  cairnVal : Bool := false
  cairnOe : Bool := false
  slips : Nat := 0
  next : Option (Word × Nat) := none
deriving DecidableEq, Repr

/-- A bank's supply and clock sources (R315, R321): the class measured and declared, VIO within its window, the pins
held high-impedance since a loss until a time at the earliest, the times VIO last left its window and last rose. -/
structure Bank where
  meas : Nat := 0
  decl : Nat := 0
  ok : Bool := false
  held : Bool := false
  until_ : Nat := 0
  outAt : Nat := 0
  rose : Nat := 0
  src0 : Nat := 63
  src1 : Nat := 63
deriving DecidableEq, Repr

/-- A crystal input's monitor (R324): stable, the counts of the last clean windows, the sum of the eight it was judged by. -/
structure Crystal where
  stable : Bool := false
  counts : List Nat := []
  sum8 : Nat := 0
  /-- The time of the last judgement as stable. -/
  stableAt : Nat := 0
  /-- The input was lost within the window that runs (R325). -/
  spoilt : Bool := false
deriving DecidableEq, Repr

/-- A PLL (R330-R335), with the spread setting in force and the time of the next lowest point of its modulation at which the
register's takes its place. -/
structure Pll where
  running : Bool := false
  lock : Bool := false
  frozen : Bool := false
  onAlt : Bool := false
  losses : Nat := 0
  ssc : Word := 0
  sscAt : Nat := 0
deriving DecidableEq, Repr

/-- Clock sources and gates; closed gates by block ID; PLL keys 0 to 15. -/
structure Clocks where
  xa : Crystal := {}
  xb : Crystal := {}
  diff : Option Int := none
  plls : Table Pll := []
  shut : Table Bool := []
  startDue : Option (Nat × Nat) := none
  spllStarted : Bool := false
deriving DecidableEq, Repr

/-! ### Engines and the dispatcher -/

/-- An address generator (R360). -/
structure AddrGen where
  ptr : Nat := 0
  step : Int := 0
  base : Nat := 0
  len : Nat := 0
deriving DecidableEq, Repr

/-- A repeat level (R363). -/
structure Level where
  lc : Word := 0
  ls : Word := 0
  le : Word := 0
deriving DecidableEq, Repr

/-- A register bank: the thread context (R348, R366). -/
structure Ctx where
  pc : Nat := 0
  g : Table Word := []
  status : Word := 0
  ag0 : AddrGen := {}
  ag1 : AddrGen := {}
  l0 : Level := {}
  l1 : Level := {}
  l2 : Level := {}
  depth : Nat := 0
  resd : Table Word := []
  acc0 : BitVec 40 := 0
  acc1 : BitVec 40 := 0
deriving DecidableEq, Repr

/-- Engine states (R344). -/
inductive EngState where
  | stopped | run | idle | monitor | fault
deriving DecidableEq, Repr

/-- What an engine waits for (R350, R367): a response, the decision of its post, its PACKs, or room for a packet. -/
inductive EngWait where
  | load (rd : Nat)
  | store
  | post (rd : Nat)
  | fence
  | room (p : RwPkt) (use : RwUse)
deriving DecidableEq, Repr

/-- Belvedere's record of an engine (R532-R534). -/
structure DebugRec where
  evtCause : Nat := 0
  evtK : Nat := 0
  bkpt : Table Word := []
  watch : Table Word := []
  skip : Bool := false
  haltPending : Bool := false
  stepping : Bool := false
  watchHit : Option Nat := none
deriving DecidableEq, Repr

/-- An engine. `staged` is the thread and context in the second bank; `ready` its STAGED flag. -/
structure Engine where
  st : EngState := .stopped
  bank : Bool := false
  ctx : Ctx := {}
  tvalid : Bool := false
  thread : Nat := 0
  staged : Option (Nat × Ctx) := none
  stagedReady : Bool := false
  epc : Word := 0
  estat : Word := 0
  ecause : Word := 0
  shadow : List Word := [0, 0, 0, 0]
  handler : Bool := false
  fromIdle : Bool := false
  reservation : Option Nat := none
  /-- Bytes that its own stores have changed in the last eight instructions, as fetch still sees them: address, byte, and the
  instructions left (R353). -/
  oldCode : List (Nat × Byte × Nat) := []
  wdog : Nat := 0
  wait : Option EngWait := none
  stopPending : Bool := false
  tlatch : List Word := [0, 0, 0, 0, 0]
  /-- ENG_CNT_STALL and ENG_CNT_BANK. -/
  stalls : Nat := 0
  conflicts : Nat := 0
  runTime : Nat := 0
  idleTime : Nat := 0
  dbg : DebugRec := {}
deriving DecidableEq, Repr

/-- Thread states (R376). -/
inductive ThState where
  | disabled | idle | ready | flowWait | staged | running | halted | ending
deriving DecidableEq, Repr

/-- A thread (TH_STAT). `gone`: its save area was lost while its context lay in a bank (R392). -/
structure Thread where
  st : ThState := .disabled
  saved : Bool := false
  gone : Bool := false
  writing : Bool := false
  ctxLost : Bool := false
  failed : Bool := false
  engine : Nat := 0
  pend : Nat := 0
  info : Word := 0
  readyAt : Nat := 0
deriving DecidableEq, Repr

/-- A flow (R388). -/
structure Flow where
  holder : Option Nat := none
  waiting : List Nat := []
deriving DecidableEq, Repr

/-- A post waiting in the intake (R380). -/
structure Post where
  src : PostSrc
  thread : Nat
  info : Word
deriving DecidableEq, Repr

/-- Snapshot counters of a level (R395). -/
structure LevelStat where
  stagings : Nat := 0
  waitSum : Nat := 0
  waitMax : Nat := 0
  depthMax : Nat := 0
deriving DecidableEq, Repr

/-- Snapshot counters of an engine (R395), with the running and idle time at the last restart. -/
structure EngStat where
  texits : Nat := 0
  yields : Nat := 0
  runBase : Nat := 0
  idleBase : Nat := 0
deriving DecidableEq, Repr

/-- The dispatcher: threads, flows, the FIFO of each level, the intake, the DSP_POST writes held behind it (R380), saved contexts
being written, counters. -/
structure Dispatcher where
  threads : Table Thread := []
  flows : Table Flow := []
  levels : Table (List Nat) := []
  intake : List Post := []
  held : List WinRequest := []
  saves : Table Ctx := []
  levelStats : Table LevelStat := []
  engStats : Table EngStat := []
  restartedAt : Nat := 0
deriving DecidableEq, Repr

/-! ### DRAM, keys, boot, overlays -/

/-- An entry of a retirement list (R415, R416). -/
structure RetiredPage where
  page : Nat
  pending : Bool
deriving DecidableEq, Repr

/-- A DRAM line as stored: 64 data bytes and the two check words (R400, R401). -/
structure Line where
  data : List Byte := List.replicate 64 0
  check : Word := 0
  tag : Word := 0
  written : Bool := false
  enc : Bool := false
deriving DecidableEq, Repr

/-- A DRAM channel. -/
structure Dram where
  powered : Bool := false
  initDone : Bool := false
  trained : Bool := false
  training : Bool := false
  hot : Bool := false
  coolReads : Nat := 0
  selfRef : Bool := false
  retired : List RetiredPage := []
  lines : Table Line := []
  drift : Int := 0
  /-- When the next temperature read and the next oscillator reading are due; none until the first (R411, R413). -/
  tempDue : Option Nat := none
  trackDue : Option Nat := none
  /-- When the patrol has last read a line (R497). -/
  patrolled : List (Nat × Nat) := []
  /-- When refreshing began, and of each bank the refreshes served since (R412). -/
  refFrom : Nat := 0
  refreshed : Table Nat := []
deriving DecidableEq, Repr

/-- A key slot (R419, R421). -/
structure KeySlot where
  key : List Byte := []
  kcv : Word := 0
deriving DecidableEq, Repr

/-- A section of an image (R448). -/
structure Section where
  type : Nat
  target : Nat
  data : List Word
deriving DecidableEq, Repr

/-- An image committed: its header words and sections (R447, R448). -/
structure Image where
  header : List Word
  sections : List Section
  bodyLen : Nat
  fromFlash : Bool
  flashAddr : Word
deriving DecidableEq, Repr

/-- An open image load (R450, R451). -/
structure Load where
  kind : Nat
  ovl : Nat
  len : Nat
  flash : Bool
  addr : Word
  bytes : List Byte
  reading : Bool
deriving DecidableEq, Repr

/-- How the boot flash is read in 8D-8D-8D (R446, R447): the read opcode, the dummy cycles, and the setup commands sent before. -/
structure FlashBus where
  read8 : Nat := 0
  dummy : Nat := 0
  setups : List (Word × Word) := []
deriving DecidableEq, Repr

/-- Boot and loading state. -/
structure Boot where
  bootsel : Nat := 0
  booting : Bool := false
  load : Option Load := none
  base : Option Image := none
  started : Bool := false
  releasing : Bool := false
  priFail : Nat := 0
  fbFail : Nat := 0
  fallback : Bool := false
  autostartDue : Option Nat := none
  autostarted : Bool := false
  preloadIdx : Nat := 0
  bus : FlashBus := {}
  rawBusy : Bool := false
  rawRead : Option Nat := none
  slots : Table (Option Image) := []
  ovlCount : Nat := 0
deriving DecidableEq, Repr

/-- The staged or staging overlay and its bound switch (OVL_STAT, R469-R482). -/
structure Overlay where
  id : Nat := 0
  busy : Bool := false
  ready : Bool := false
  image : Option Image := none
  bound : Bool := false
  auto : Bool := false
  autoAt : Nat := 0
  cairn : Nat := 0
  modeEnter : Bool := false
  reason : Nat := 0
  chanSrc : Table Nat := []
deriving DecidableEq, Repr

/-! ### BIST, debug, monitor, power -/

/-- BIST and march (R515-R525). -/
structure Bist where
  setsLeft : List Nat := []
  mask : Nat := 0
  setNow : Nat := 0
  march : Option (Word × Word) := none
  setsRun : List Nat := []
  marchRun : Bool := false
deriving DecidableEq, Repr

/-- What a capture took of a terrace: its flip-flops and its slices (R528). -/
structure Snapshot where
  ff : BitVec 65536 := 0
  slices : List FabricCell.Slice := []
deriving DecidableEq, Repr

/-- A capture (R526-R528): what was taken of each terrace, whether the position has come, the lines (terrace, line) whose values
stand, those of them that captured on a running edge, the terraces with a held bay. -/
structure Capture where
  done : Bool := false
  armed : Bool := false
  taking : Bool := false
  cairn : Nat := 0
  position : Nat := 0
  targets : List Nat := []
  snaps : List (Nat × Snapshot) := []
  begun : Bool := false
  fixed : List (Nat × Nat) := []
  lines : List (Nat × Nat) := []
  repaired : List Nat := []
deriving DecidableEq, Repr

/-- A trace packet on its way to Belvedere (R539): class, source, kind, the source's frame and phase, the payload. -/
structure TracePkt where
  cls : Nat
  src : Nat
  kind : Nat
  at_ : Word
  d0 : Word
  d1 : Word
deriving DecidableEq, Repr

/-- The trace (R538-R541): LOST of each class, the packets on their way to Belvedere, and how many of each class reached it in the
last clock. -/
structure Trace where
  run : Bool := false
  triggered : Bool := false
  wrapped : Bool := false
  next : Nat := 0
  left : Nat := 0
  lost : Table Nat := []
  made : List TracePkt := []
  clock : Nat := 0
  queued : Table Nat := []
deriving DecidableEq, Repr

/-- A monitor input (R546-R550): `busy` in a round whose slots began at `since`; the SAMPLEs under way, by the start of their
acquisition. -/
structure MonInput where
  outRun : Nat := 0
  alarm : Bool := false
  nextDue : Nat := 0
  busy : Bool := false
  since : Nat := 0
  samples : List Nat := []
deriving DecidableEq, Repr

/-- A die sensor's trip runs (R551). -/
structure Sensor where
  hotRun : Nat := 0
  coolRun : Nat := 0
deriving DecidableEq, Repr

/-- The monitor. `adcOn` since the system PLL first locked (R544); when the last SAMPLE slot of each ADC ends (R547) and when
the slots taken of it end (R544, R546), and when the die sensors and the reference of each ADC are next converted (R551, R552). -/
structure Monitor where
  adcOn : Bool := false
  inputs : Table MonInput := []
  sensors : Table Sensor := []
  trip : Bool := false
  bad0 : Bool := false
  bad1 : Bool := false
  slotEnd : Table Nat := []
  taken : Table Nat := []
  dieDue : Nat := 0
  refDue : Table Nat := []
deriving DecidableEq, Repr

/-- Power domains and reset, by domain block ID: memories filled since the device's reset, domains off; `op` the domain
whose fence is asked for, `opGate` by GATE_SET, `opSince` when, or with `opOn` the domain that is being switched on and filled
(R556); `opDomain` the domain DOMAIN_POWER last named. -/
structure Power where
  held : Bool := false
  filled : Table Bool := []
  off : Table Bool := []
  op : Option Nat := none
  opGate : Bool := false
  opOn : Bool := false
  opSince : Nat := 0
  opDomain : Nat := 0
  fenceHeld : Bool := false
  t0 : Nat := 0
deriving DecidableEq, Repr

/-- The boundary-scan port (R542): instruction, boundary register, the levels last sampled, the selected data register. -/
structure Jtag where
  ir : Byte := 1
  boundary : List Bool := []
  captured : List Bool := []
  dr : Word := 0
  driving : Bool := false
  highz : Bool := false
deriving DecidableEq, Repr

/-! ### The present clock -/

/-- What has happened in the present timebase clock, forgotten when time passes (R82, R84, R98, R108, R550): status bits
hardware has set and request bits software has set, by register; of each counter that has advanced, its word before and the
events; the word before the first write of each register software has changed; the timebase before an input was taken into
use after a loss; the log entries stored (R502); the posts decided (R379); what the statistics of initiator ports have counted
(R275); the Cairns that have fired or, with the cause, missed, whose slots free or go on in the next clock (R132, R477, R480); the
stamps taken at each source (R117); the words that registers show where a Cairn's action has come before a write (R32); the
Spine drivers that a contention has turned off and the log has not met (R288). Part of the model's own field `tick`. -/
structure Tick where
  set : Table Word := []
  asked : Table Word := []
  counted : Table (Option (Word × Nat)) := []
  old : Table (Option Word) := []
  took : Option Timebase := none
  logged : Nat := 0
  decided : Nat := 0
  stats : Table PortStats := []
  ended : List (Nat × Option Byte) := []
  stamped : Table Nat := []
  shown : Table (Option Word) := []
  clash : List (Nat × Nat) := []
deriving DecidableEq, Repr

/-! ### The device -/

/-- The whole device. -/
structure State where
  /-- Commands waiting, first in, first out. -/
  pending : List Instr := []
  /-- Elapsed time, ps. -/
  now : Nat := 0
  /-- The counter of free values (the model's own field). -/
  freeCtr : Nat := 0
  /-- What has happened in the present clock (the model's own field, log entry 16). -/
  tick : Tick := {}
  /-- Stored words that hold an error no reader has met yet (R484, R486, R488; log entry 74). -/
  weak : List (PatrolPlace × Upset) := []
  /-- When the patrol scrubbers have last read a word (R497). -/
  patrolled : List (PatrolPlace × Nat) := []
  mode : Mode := .boot
  /-- DEV_GSTAT.STOP_PEND (R435). -/
  stopPend : Bool := false
  /-- Registers of the parameter space that are not derived; unlisted words hold their Reset column. -/
  regs : Table Word := []
  /-- Copies of latched groups (R86). -/
  latch : Table Word := []
  gh : Gatehouse := {}
  log : Log := {}
  tb : Timebase := {}
  cairns : Table Cairn := []
  events : List EventRecord := []
  stamps : Table StampSource := []
  lanes : Table Lane := []
  scans : Table (Option Scan) := []
  chans : Table Channel := []
  cisterns : Table Cistern := []
  orc : Orchard := {}
  rw : Ridgeway := {}
  terraces : Table Terrace := []
  bram : Table Word64 := []
  /-- The 8-bit codes of the half-words (R299). -/
  bramCodes : Table Byte := []
  fab : Table UserLogic := []
  pads : Table Pad := []
  keepers : Table (Option Bool) := []
  pins : Table Pin := []
  banks : Table Bank := []
  clk : Clocks := {}
  engines : Table Engine := []
  spad : Table Byte := []
  spadBad : Table Bool := []
  dsp : Dispatcher := {}
  dram : Table Dram := []
  keys : Table KeySlot := []
  boot : Boot := {}
  ovl : Overlay := {}
  bist : Bist := {}
  cap : Capture := {}
  trace : Trace := {}
  mon : Monitor := {}
  pwr : Power := {}
  jtag : Jtag := {}
deriving DecidableEq, Repr

/-- Why the machine stops. -/
inductive Fault where
  /-- A command names a unit, pin, input, router or line whose number does not exist (R5, R24). Raised by every event
  row that carries a unit number. Safe: no wire of the device can carry such an event. -/
  | noSuchUnit
deriving DecidableEq, Repr

/-- Why a command has no meaning. -/
inductive Refusal where
  /-- The command's meaning is not written. Safe: the model stops. -/
  | notModelled (mnemonic : String)
deriving DecidableEq, Repr

/-- The machine right after power-good (R440, R443): BOOT, every register at its Reset column, the memory fill and the
Gatehouse's start still to come (R444, R445), BOOTSEL 0b00 (DESIGN CHOICE, log entry 2). -/
def State.reset : State := {}

end Sys2Proof.Machine
end

