-- ==== Sys2Proof/Machine/Basic.lean ====
section
/-!
DEFINITION. Accessors of the state that every family uses: outcomes, the present clock, units, registers, counters,
numbering, domains, fences and gates, enables, and the two time values.
-/
namespace Sys2Proof.Machine

open Sys2Proof

/-- The reason codes that report a failure (R16). -/
def reasonCodes : List Byte := [
  0x01, 0x02, 0x03, 0x04, 0x05, 0x06, 0x07, 0x08, 0x09, 0x10, 0x11, 0x12, 0x13, 0x14, 0x15, 0x16, 0x17, 0x18, 0x19, 0x1A,
  0x1B, 0x1C, 0x1D, 0x1E, 0x1F, 0x20, 0x21, 0x22, 0x23, 0x24, 0x25, 0x26, 0x27, 0x30, 0x31, 0x32, 0x33, 0x34, 0x40, 0x41, 0x42]

/-- The reason of a fabric access to a closed range: one of the table, which one is left open (R16, R30, R268). -/
def closedReason : Byte := reasonCodes.getD (Config.closedPlace % 41) 0x07

/-! ### Outcomes -/

/-- The outcome type of every meaning. -/
abbrev Out := Host.Outcome State Fault Refusal

/-- A register write: the state after it and the reason code, 0x00 when it was carried out. -/
abbrev WRes := State × Byte

/-- How a command that the Gatehouse carries out ends: with a final reply, or still running until an event. -/
inductive OpEnd where
  | reply (status reason : Byte) (data : List Word)
  | wait
deriving DecidableEq, Repr

/-- The effect of a command: the state after it and its end. -/
abbrev OpRes := State × OpEnd

/-- A DONE reply with data words; a REFUSED one; a FAULT one (R53). -/
def opDone (s : State) (ws : List Word) : OpRes := (s, .reply 0x00 0x00 ws)
def opRefuse (s : State) (r : Byte) : OpRes := (s, .reply 0x02 r [])
def opFault (s : State) (r : Byte) (ws : List Word) : OpRes := (s, .reply 0x03 r ws)

/-! ### The present clock -/

namespace Tick

/-- Hardware sets bits of a register. -/
def noteSet (t : Tick) (a : Nat) (m : Word) : Tick :=
  { t with set := Table.set (fun _ => 0) t.set a (Table.get (fun _ => 0) t.set a ||| m) }

/-- A counter whose word was `w` advances by n. -/
def noteCount (t : Tick) (a : Nat) (w : Word) (n : Nat) : Tick :=
  let x := (Table.get (fun _ => none) t.counted a).getD (w, 0)
  { t with counted := Table.set (fun _ => none) t.counted a (some (x.1, x.2 + n)) }

/-- Software changes a register that held `w`, or asks by request bits `m` of it. -/
def noteWrite (t : Tick) (a : Nat) (w m : Word) : Tick :=
  { t with
    old := Table.set (fun _ => none) t.old a (some ((Table.get (fun _ => none) t.old a).getD w))
    asked := Table.set (fun _ => 0) t.asked a (Table.get (fun _ => 0) t.asked a ||| m) }

/-- A read has taken the counter at `a`. -/
def dropCount (t : Tick) (a : Nat) : Tick := { t with counted := Table.set (fun _ => none) t.counted a none }

/-- The record after n clocks. -/
def after (n : Nat) (t : Tick) : Tick := if n = 0 then t else {}

end Tick

/-! ### Unit records -/

/-- The words of a thread's, a flow's and a Cairn's entry (R484). -/
def threadWords (t : Nat) : List PatrolPlace := (List.range 8).map (.threadEntry t)
def flowWords (f : Nat) : List PatrolPlace := (List.range 2).map (.flowEntry f)
def cairnWords (k : Nat) : List PatrolPlace := (List.range 4).map (.cairnEntry k)

namespace State

/-- The error a stored word holds that nothing has met yet (R484, R486). -/
def weakAt (s : State) (p : PatrolPlace) : Upset := ((s.weak.find? (fun e => decide (e.1 = p))).map (·.2)).getD .clean

/-- A stored word holds no error any more. -/
def mend (s : State) (p : PatrolPlace) : State := { s with weak := s.weak.filter (fun e => !decide (e.1 = p)) }

/-- A stored word takes an error. -/
def setWeak (s : State) (p : PatrolPlace) (u : Upset) : State :=
  let t := s.mend p
  if u = .corrected ∨ u = .uncorrectable then { t with weak := t.weak ++ [(p, u)] } else t

/-- The worst error among the words of an entry (R484). -/
def entryUpset (s : State) (ps : List PatrolPlace) : Upset :=
  if s.weak = [] then .clean
  else if ps.any (fun p => decide (s.weakAt p = .uncorrectable)) then .uncorrectable
  else if ps.any (fun p => decide (s.weakAt p = .corrected)) then .corrected
  else .clean

/-- The words of an entry are written anew. -/
def mendAll (s : State) (ps : List PatrolPlace) : State :=
  if s.weak = [] then s else { s with weak := s.weak.filter (fun e => !decide (e.1 ∈ ps)) }

def lane (s : State) (k : Nat) : Lane := Table.get (fun _ => {}) s.lanes k
def setLane (s : State) (k : Nat) (v : Lane) : State := { s with lanes := Table.set (fun _ => {}) s.lanes k v }
def modLane (s : State) (k : Nat) (f : Lane → Lane) : State := s.setLane k (f (s.lane k))

def chan (s : State) (k : Nat) : Channel := Table.get (fun _ => {}) s.chans k
def setChan (s : State) (k : Nat) (v : Channel) : State := { s with chans := Table.set (fun _ => {}) s.chans k v }
def modChan (s : State) (k : Nat) (f : Channel → Channel) : State := s.setChan k (f (s.chan k))

def cis (s : State) (k : Nat) : Cistern := Table.get (fun _ => {}) s.cisterns k
def setCis (s : State) (k : Nat) (v : Cistern) : State := { s with cisterns := Table.set (fun _ => {}) s.cisterns k v }
def modCis (s : State) (k : Nat) (f : Cistern → Cistern) : State := s.setCis k (f (s.cis k))

def terr (s : State) (k : Nat) : Terrace := Table.get (fun _ => {}) s.terraces k
def setTerr (s : State) (k : Nat) (v : Terrace) : State := { s with terraces := Table.set (fun _ => {}) s.terraces k v }
def modTerr (s : State) (k : Nat) (f : Terrace → Terrace) : State := s.setTerr k (f (s.terr k))

def pin (s : State) (k : Nat) : Pin := Table.get (fun _ => {}) s.pins k
def setPin (s : State) (k : Nat) (v : Pin) : State := { s with pins := Table.set (fun _ => {}) s.pins k v }
def modPin (s : State) (k : Nat) (f : Pin → Pin) : State := s.setPin k (f (s.pin k))

def bank (s : State) (k : Nat) : Bank := Table.get (fun _ => {}) s.banks k
def setBank (s : State) (k : Nat) (v : Bank) : State := { s with banks := Table.set (fun _ => {}) s.banks k v }
def modBank (s : State) (k : Nat) (f : Bank → Bank) : State := s.setBank k (f (s.bank k))

def pll (s : State) (k : Nat) : Pll := Table.get (fun _ => {}) s.clk.plls k
def setPll (s : State) (k : Nat) (v : Pll) : State :=
  { s with clk := { s.clk with plls := Table.set (fun _ => {}) s.clk.plls k v } }
def modPll (s : State) (k : Nat) (f : Pll → Pll) : State := s.setPll k (f (s.pll k))

def eng (s : State) (k : Nat) : Engine := Table.get (fun _ => {}) s.engines k
def setEng (s : State) (k : Nat) (v : Engine) : State := { s with engines := Table.set (fun _ => {}) s.engines k v }
def modEng (s : State) (k : Nat) (f : Engine → Engine) : State := s.setEng k (f (s.eng k))

def dr (s : State) (k : Nat) : Dram := Table.get (fun _ => {}) s.dram k
def setDr (s : State) (k : Nat) (v : Dram) : State := { s with dram := Table.set (fun _ => {}) s.dram k v }
def modDr (s : State) (k : Nat) (f : Dram → Dram) : State := s.setDr k (f (s.dr k))

def cairn (s : State) (k : Nat) : Cairn := Table.get (fun _ => {}) s.cairns k
def setCairn (s : State) (k : Nat) (v : Cairn) : State := { s with cairns := Table.set (fun _ => {}) s.cairns k v }
def modCairn (s : State) (k : Nat) (f : Cairn → Cairn) : State := s.setCairn k (f (s.cairn k))

def thread (s : State) (k : Nat) : Thread := Table.get (fun _ => {}) s.dsp.threads k
def setThread (s : State) (k : Nat) (v : Thread) : State :=
  { s with dsp := { s.dsp with threads := Table.set (fun _ => {}) s.dsp.threads k v } }
def modThread (s : State) (k : Nat) (f : Thread → Thread) : State := s.setThread k (f (s.thread k))

def flow (s : State) (k : Nat) : Flow := Table.get (fun _ => {}) s.dsp.flows k
def setFlow (s : State) (k : Nat) (v : Flow) : State :=
  { s with dsp := { s.dsp with flows := Table.set (fun _ => {}) s.dsp.flows k v } }

def queue (s : State) (q : Nat) : OQueue := Table.get (fun _ => {}) s.orc.queues q
def setQueue (s : State) (q : Nat) (v : OQueue) : State :=
  { s with orc := { s.orc with queues := Table.set (fun _ => {}) s.orc.queues q v } }
def modQueue (s : State) (q : Nat) (f : OQueue → OQueue) : State := s.setQueue q (f (s.queue q))

def oridge (s : State) (r : Nat) : ORidge := Table.get (fun _ => {}) s.orc.ridges r
def setORidge (s : State) (r : Nat) (v : ORidge) : State :=
  { s with orc := { s.orc with ridges := Table.set (fun _ => {}) s.orc.ridges r v } }

def owin (s : State) (r w : Nat) : OWindow := Table.get (fun _ => {}) s.orc.windows (r * 16 + w)
def setOwin (s : State) (r w : Nat) (v : OWindow) : State :=
  { s with orc := { s.orc with windows := Table.set (fun _ => {}) s.orc.windows (r * 16 + w) v } }

def monIn (s : State) (i : Nat) : MonInput := Table.get (fun _ => {}) s.mon.inputs i
def setMonIn (s : State) (i : Nat) (v : MonInput) : State :=
  { s with mon := { s.mon with inputs := Table.set (fun _ => {}) s.mon.inputs i v } }

def keySlot (s : State) (k : Nat) : KeySlot := Table.get (fun _ => {}) s.keys k
def setKey (s : State) (k : Nat) (v : KeySlot) : State := { s with keys := Table.set (fun _ => {}) s.keys k v }

def scan (s : State) (q : Nat) : Option Scan := Table.get (fun _ => none) s.scans q
def setScan (s : State) (q : Nat) (v : Option Scan) : State := { s with scans := Table.set (fun _ => none) s.scans q v }

def slot (s : State) (n : Nat) : Option Image := Table.get (fun _ => none) s.boot.slots n

/-! ### Registers -/

/-- The stored word of a register. -/
def reg (s : State) (a : Nat) : Word := Table.get resetWord s.regs a

/-- Hardware or a checked write sets a register's stored word. -/
def setReg (s : State) (a : Nat) (w : Word) : State := { s with regs := Table.set resetWord s.regs a w }

/-- The record of the present clock changes. -/
def setTick (s : State) (t : Tick) : State := { s with tick := t }

/-- A field of a register. -/
def rf (s : State) (a hi lo : Nat) : Nat := fld (s.reg a) hi lo

/-- A bit of a register. -/
def rb (s : State) (a n : Nat) : Bool := bit (s.reg a) n

/-- Hardware sets a field. -/
def setRf (s : State) (a hi lo v : Nat) : State := s.setReg a (putFld (s.reg a) hi lo v)

/-- Hardware sets or clears a bit. A bit set is noted for the clock; a request that software has made in this clock stays
(R82). -/
def setRb (s : State) (a n : Nat) (b : Bool) : State :=
  (s.setReg a (putBit (s.reg a) n (b || bit (Table.get (fun _ => 0) s.tick.asked a) n))).setTick
    (if b then s.tick.noteSet a (w32 (2 ^ n)) else s.tick)

/-- An event counter advances by n and saturates (R83). -/
def addCnt (s : State) (a n : Nat) : State :=
  (s.setReg a (satAdd (s.reg a) n)).setTick (if n = 0 then s.tick else s.tick.noteCount a (s.reg a) n)

/-- A 16-bit counter field in [15:0] advances by one and saturates (R83). -/
def addCnt16 (s : State) (a : Nat) : State :=
  if s.rf a 15 0 = 0xFFFF then s else s.setRf a 15 0 (s.rf a 15 0 + 1)

/-- The word of a register before software changed it in this clock (R98, R550). -/
def regBefore (s : State) (a : Nat) : Word := (Table.get (fun _ => none) s.tick.old a).getD (s.reg a)

/-- The bits of a register that hardware has set in this clock (R82). -/
def setNow (s : State) (a : Nat) : Word := Table.get (fun _ => 0) s.tick.set a

/-- The request bits of a register that software has set in this clock. -/
def askedNow (s : State) (a : Nat) : Word := Table.get (fun _ => 0) s.tick.asked a

/-- Software has set again, in this clock, a request bit that was 1 before: where hardware clears it now, the request is a new
one (R82). -/
def reAsked (s : State) (a n : Nat) : Bool := bit (s.askedNow a) n && bit (s.regBefore a) n

/-- Hardware clears a bit of a register, whatever software has asked. -/
def clearBit (s : State) (a n : Nat) : State := s.setReg a (putBit (s.reg a) n false)

/-- A fresh free value. -/
def fresh (s : State) : State := { s with freeCtr := s.freeCtr + 1 }

end State

open State

/-- The word of a check (R92). -/
def checkWord (pass : Bool) (reason : Byte) (off : Nat) : Word :=
  flag 31 true ||| flag 30 pass ||| at_ 16 reason.toNat ||| w32 (off % 65536)

/-- Record a check in its check word: reason 0x00 is a pass. -/
def State.recordCheck (s : State) (a : Nat) (reason : Byte) (off : Nat) : State :=
  s.setReg a (checkWord (reason = 0) reason (if reason = 0 then 0 else off))

/-- The first failing test of a list of (failed, reason, offset); reason 0x00 when all pass (R92). -/
def firstFail : List (Bool × Byte × Nat) → Byte × Nat
  | [] => (0, 0)
  | (b, r, o) :: t => if b then (r, o) else firstFail t

/-- The first refusal of a list of (refused, reason); 0x00 when none. -/
def firstRefusal : List (Bool × Byte) → Byte
  | [] => 0
  | (b, r) :: t => if b then r else firstRefusal t

/-- RES_STAT of a result that finishes (R87, R88): VALID, ERR and the next SEQ. -/
def resDone (old : Word) (err : Bool) : Word :=
  flag 31 true ||| flag 30 err ||| w32 ((fld old 15 0 + 1) % 65536)

/-- RES_STAT when an operation starts: VALID becomes 0, ERR and SEQ stay (R88). -/
def resStart (old : Word) : Word := old &&& 0x7FFFFFFF

/-! ### Numbering, domains, fences, gates -/

/-- Block IDs of the domains (R24, R33). -/
def ridgeId (r : Nat) : Nat := 0x0400 + r
def terraceId (t : Nat) : Nat := 0x0800 + t
def pavilionId (p : Nat) : Nat := 0x0C00 + p
def quadId (q : Nat) : Nat := 0x1400 + q
def chanId (c : Nat) : Nat := 0x1800 + c
def cisId (i : Nat) : Nat := 0x1C00 + i
def dramId (d : Nat) : Nat := 0x2000 + d
def bankId (b : Nat) : Nat := 0x2C00 + b
def engineId (e : Nat) : Nat := 0x1000 + e
def monitorId : Nat := 0x000B
def dispatcherId : Nat := 0x0007

/-- The ridge of a Cistern (R5). -/
def cisRidge (i : Nat) : Nat := if i < 144 then i / 36 else (i - 144) / 32

/-- The ridge of a bank (R312). -/
def bankRidge (b : Nat) : Nat := if b < 3 then 0 else if b < 6 then 1 else if b < 9 then 2 else 3

/-- The power domain that holds a block, by target block ID (R33); 0 for the device domain, never switched. -/
def domainOf (id : Nat) : Nat :=
  let kind := id / 0x400
  let n := id % 0x400
  match kind with
  | 1 => ridgeId n
  | 2 => terraceId n
  | 3 => pavilionId n
  | 4 => pavilionId (n / 8)
  | 5 => quadId n
  | 6 => quadId (n / 4)
  | 7 => if n < 144 then quadId (n / 4) else terraceId (n - 144)
  | 8 => ridgeId (n / 4)
  | 9 => ridgeId (n / 4)
  | 10 => ridgeId (n / 16)
  | _ => 0

/-- The ridge domain above a unit domain. -/
def parentOf (d : Nat) : Nat :=
  let n := d % 0x400
  match d / 0x400 with
  | 2 => ridgeId (n / 32)
  | 3 => ridgeId (n / 2)
  | 5 => ridgeId (n / 9)
  | _ => 0

/-- The domain a parameter-space place lies in (R73, R77). -/
def placeDomain : Place → Nat
  | .orchard r => ridgeId r
  | .pavilion p => pavilionId p
  | p => domainOf ((ownerOf p).getD 0)

namespace State

/-- A domain switched on, its ridge counted (R33, R34). -/
def domainOn (s : State) (d : Nat) : Bool :=
  (Table.get (fun _ => false) s.pwr.off d = false) && (Table.get (fun _ => false) s.pwr.off (parentOf d) = false)

/-- The fence of a domain. -/
def fence (s : State) (d : Nat) : Fence := Table.get (fun _ => .opened) s.rw.fences d

def setFence (s : State) (d : Nat) (f : Fence) : State :=
  { s with rw := { s.rw with fences := Table.set (fun _ => .opened) s.rw.fences d f } }

/-- A closed fence stands before a domain or its ridge (R272). -/
def fenced (s : State) (d : Nat) : Bool :=
  decide (s.fence d ≠ .opened) || decide (s.fence (parentOf d) ≠ .opened)

/-- A gate of the tree is open (R336); the root is 0x0000. -/
def gateOpen (s : State) (g : Nat) : Bool := Table.get (fun _ => false) s.clk.shut g = false

def setGate (s : State) (g : Nat) (o : Bool) : State :=
  { s with clk := { s.clk with shut := Table.set (fun _ => false) s.clk.shut g (!o) } }

/-- The reason a block cannot be reached: its domain off 0x07 or fenced 0x1C (R77, R133). -/
def reach (s : State) (d : Nat) : Byte :=
  if d = 0 then 0 else if !s.domainOn d then 0x07 else if s.fenced d then 0x1C else 0

/-- The fences that traffic of domain d meets: a unit domain's own stands at its router ports, a ridge's at the gateway ports,
where only what crosses into or out of the ridge passes (R272). -/
def fenceStops (s : State) (d : Nat) (crossing : Bool) : Bool :=
  ((decide (d / 0x400 ≠ 1) || crossing) && decide (s.fence d ≠ .opened)) ||
    (crossing && decide (s.fence (parentOf d) ≠ .opened))

/-! ### Enables and modes -/

def tbOn (s : State) : Bool := s.rb 0x30000 0
def chEn (s : State) (c : Nat) : Bool := s.rb (aCh c) 0
def orcEn (s : State) (r : Nat) : Bool := s.rb (aOrc r) 0
def dspEn (s : State) : Bool := s.rb 0xC00000 0
def drEn (s : State) (d : Nat) : Bool := s.rb (aDram d) 0
def monEn (s : State) : Bool := s.rb 0xF00000 0
def queueEn (s : State) (q : Nat) : Bool := s.rb (aQueue q) 31

/-- A channel whose CH_CTRL.EN is 1 and that is not retired is in service (R154). -/
def inService (s : State) (c : Nat) : Bool := s.chEn c && !(s.chan c).retired

/-- A Cistern's enable: its own, or CH_CTRL.EN of its channel (CIS_CTRL). -/
def cisEn (s : State) (i : Nat) : Bool := if i < 144 then s.chEn i else s.rb (aCis i) 0

/-- The device runs: it is neither held in reset nor in INTEGRITY STOP (R437, R441). -/
def live (s : State) : Bool := !s.pwr.held && decide (s.mode ≠ .stop)

/-- One of the six run modes (R65). -/
def runMode (s : State) : Bool := decide (s.mode ≠ .boot) && decide (s.mode ≠ .stop)

end State

/-- The code of a mode (Operating mode codes). -/
def Mode.code : Mode → Nat
  | .boot => 0 | .staging => 1 | .service => 2 | .maintain => 3 | .holdover => 4 | .degraded => 5 | .drain => 6
  | .stop => 15

/-- The mode of a code 1 to 6. -/
def Mode.ofCode : Nat → Option Mode
  | 1 => some .staging | 2 => some .service | 3 => some .maintain | 4 => some .holdover | 5 => some .degraded
  | 6 => some .drain | _ => none

/-! ### Time -/

/-- Phase steps of a frame, a superframe, and of the whole count (R10, R11). -/
def stepsPerFrame : Nat := 65536
def stepsPerSf : Nat := 16000 * 65536
def fpModulus : Nat := 2 ^ 32 * stepsPerSf

/-- Steps from a position's words: superframe, frame and phase (R10). -/
def posSteps (sf fp : Word) : Nat := sf.toNat * stepsPerSf + fp.toNat

/-- The binary form of a Frame Position (R10). -/
def fpForm (n : Nat) : BitVec 64 := BitVec.ofNat 64 (n / stepsPerSf * 2 ^ 32 + n % stepsPerSf)

/-- The two words of a Frame Position. -/
def fpSf (n : Nat) : Word := w32 (n / stepsPerSf)
def fpFrPh (n : Nat) : Word := w32 (n % stepsPerSf)

/-- A later position is reached: the first is equal to or later than the second (R101, R129), the superframe wrap taken
within half its range. -/
def reached (now pos : Nat) : Bool := decide ((now + fpModulus - pos % fpModulus) % fpModulus < fpModulus / 2)

/-- Phase steps in a span of ns at the nominal rate, rounded up: 65,536 steps in 125,000 ns. -/
def stepsOfNs (ns : Nat) : Nat := cdiv (ns * 65536) 125000

/-- Units of Device Time in a second and a nanosecond. -/
def dtPerNs : Nat := 2 ^ 40
def dtPerSec : Nat := 1000000000 * 2 ^ 40

/-- The binary form of a Device Time: seconds, nanoseconds, 1/65,536 ns (R12). -/
def timeForm (t : Nat) : BitVec 96 :=
  BitVec.ofNat 96 (t / dtPerSec * 2 ^ 48 + t % dtPerSec / dtPerNs * 2 ^ 16 + t % dtPerNs / 2 ^ 24)

/-- The denominator of the Frame Position's fraction, and the numerator one clock adds at a rate offset in 2^-40. -/
def fpDen : Nat := 1000000 * 2 ^ 40
def fpInc (rate : Int) : Nat := (1048576 * ((2 ^ 40 : Nat) + rate)).toNat

/-- The timebase after n of its clocks (R99-R101), with the superframe stamp of the last frame 0 crossed. -/
def Timebase.run (n : Nat) (t : Timebase) : Timebase :=
  let total := t.fpAcc + n * fpInc t.rate
  let fp' := t.fp + total / fpDen
  let dev' := t.devTime + n * t.addend
  let sf' := fp' / stepsPerSf
  let t1 := { t with fp := fp' % fpModulus, fpAcc := total % fpDen, devTime := dev' }
  if sf' = t.fp / stepsPerSf then t1
  else
    -- clocks to the first edge at or after the last superframe boundary
    let need := (sf' * stepsPerSf - t.fp) * fpDen - t.fpAcc
    let k := cdiv need (fpInc t.rate)
    { t1 with sfNum := sf' % 2 ^ 32, sfTime := t.devTime + k * t.addend }

/-- The Frame Position at an instant `age` ps back, at the present rate. -/
def Timebase.fpAgo (t : Timebase) (age : Nat) : Nat :=
  (t.fp * fpDen + t.fpAcc + fpModulus * fpDen - age / 2000 * fpInc t.rate % (fpModulus * fpDen)) / fpDen % fpModulus

/-- Device Time and Frame Position an instant of `ps` ahead, at the present rates. -/
def Timebase.ahead (t : Timebase) (ps : Nat) : Nat × Nat :=
  (t.devTime + ps * t.addend / 2000, (t.fp * fpDen + t.fpAcc + ps * fpInc t.rate / 2000) / fpDen % fpModulus)

/-- The stall counts of a running engine after a span from time `t` of `ps`: saturating, and no more than the clocks of
1,500 MHz in it; a conflict's stalls are part of all (R343, R355). -/
def Engine.stall (k t ps : Nat) (e : Engine) : Engine :=
  let n := min (Config.stallClocks k t ps) (ps * 3 / 2000)
  { e with
    stalls := min (2 ^ 32 - 1) (e.stalls + n)
    conflicts := min (2 ^ 32 - 1) (e.conflicts + min (Config.conflictClocks k t ps) n) }

/-- An engine's own counts after a span: ps elapsed and Device Time elapsed (R371, R395). -/
def Engine.elapse (ps dt : Nat) (e : Engine) : Engine :=
  let e1 := if e.st = .run then { e with wdog := e.wdog - dt } else e
  if e1.st = .idle then { e1 with idleTime := e1.idleTime + ps }
  else if e1.st = .run ∧ e1.tvalid then { e1 with runTime := e1.runTime + ps }
  else e1

/-! ### What a Cistern shows its consumer and its producer (R204, R208, R209, R211) -/

/-- Lines a Cistern holds (R204). -/
def cisLines (i : Nat) : Nat := if i < 144 then 512 else 256

/-- Lines a frame occupies: those written and not wholly taken. -/
def CisFrame.lines (f : CisFrame) : Nat := cdiv f.bytes.length 32 - f.taken / 32

namespace State

/-- Bytes of an output word. -/
def cisOutB (s : State) (i : Nat) : Nat := match s.rf (aCis i) 9 8 with | 0 => 8 | 1 => 16 | _ => 32
/-- A general Cistern fed by its write window (R210). -/
def cisByWindow (s : State) (i : Nat) : Bool := decide (144 ≤ i) && s.rb (aCis i) 5

end State

/-- Output words of a frame that have closed. The last full word of a frame written through the window stays open until
the next byte or CIS_WR_END, since its EOF is not known before (log entry 20), and the last word of a channel frame, whose
length is known, until its trailer has been checked (R212). -/
def CisFrame.words (f : CisFrame) (b : Nat) (byWindow : Bool) : Nat :=
  if f.closed then max (cdiv f.bytes.length b) (f.taken / b + 1)
  else if byWindow then (f.bytes.length - 1) / b
  else if f.len = 0 then f.bytes.length / b else min (f.bytes.length / b) ((f.len - 1) / b)

namespace State

/-- Lines in use, and free lines. -/
def cisUsed (s : State) (i : Nat) : Nat := ((s.cis i).frames.map CisFrame.lines).foldl (· + ·) 0
def cisFree (s : State) (i : Nat) : Nat := cisLines i - s.cisUsed i

/-- A general Cistern takes a word: a line is free (R207). -/
def cisRoom (s : State) (i : Nat) : Bool := decide (0 < s.cisFree i)

/-- A word of the head frame is visible. -/
def cisReady (s : State) (i : Nat) : Bool :=
  match (s.cis i).frames with
  | [] => false
  | f :: _ => f.shown && decide (f.taken / s.cisOutB i < f.words (s.cisOutB i) (s.cisByWindow i)) && !(s.cis i).dropping

/-- The head word: its tag and its eight data words (R209, R210); an owed ABORT word first (R218). -/
def cisHead (s : State) (i : Nat) : Word × List Word :=
  let x := s.cis i
  if x.abortOwed then (flag 31 true ||| flag 29 true ||| flag 28 true, List.replicate 8 0)
  else if !s.cisReady i then (0, List.replicate 8 0)
  else match x.frames with
    | [] => (0, List.replicate 8 0)
    | f :: _ =>
      let b := s.cisOutB i
      let data := (f.bytes.drop f.taken).take b
      let eof := f.closed && decide (f.taken / b + 1 = f.words b (s.cisByWindow i))
      let vb := if eof ∧ data.length < b then data.length else 0
      (flag 31 true ||| flag 30 (!f.begun) ||| flag 29 eof ||| flag 28 (eof && f.abort) ||| at_ 16 vb |||
        w32 (if f.begun then 0 else f.len),
       (List.range 8).map (fun k => if 4 * k < data.length then beWord (data.drop (4 * k)) else 0))

end State

/-! ### The references and outputs of the PLLs (R327, R332) -/

/-- CK_Xn_CFG of input 0 (XA) or 1 (XB). -/
def aX (x : Nat) : Nat := 0x20008 + 4 * x

namespace State

def xFreq (s : State) (x : Nat) : Nat := s.rf (aX x) 19 0
/-- REF and ALT of a PLL: 0 XA, 1 XB, 2 FOSC, 3 none. -/
def pllRef (s : State) (p : Nat) : Nat := s.rf (aPll p) 3 2
def pllAlt (s : State) (p : Nat) : Nat := s.rf (aPll p) 5 4

/-- The input an enabled PLL runs on (R332). -/
def pllOn (s : State) (p : Nat) : Nat := if (s.pll p).onAlt then s.pllAlt p else s.pllRef p

/-- The spread setting of a PLL in force: the register's, once the next lowest point of the modulation since its write has come
(R335). -/
def pllSpread (s : State) (p : Nat) : Word :=
  if (s.pll p).sscAt ≤ s.now then s.reg (aPll p + 0x14) else (s.pll p).ssc

/-- The declared frequency of a reference in kHz. -/
def refFreq (s : State) (r : Nat) : Nat := if r < 2 then s.xFreq r else 200000

/-- Output frequency to the nearest hertz from fref in kHz, N, F and D (R327, R330). -/
def outHz (fref n f d : Nat) : Nat := (fref * 1000 * (n * 2 ^ 24 + f) * 2 + 2 ^ 24 * d) / (2 * 2 ^ 24 * d)

end State

end Sys2Proof.Machine
end

