-- ==== Sys2Proof/Machine/Slots.lean ====
section
/-!
DEFINITION. What an overlay owns, and the Cairn slots: fields, the bound switch of an overlay, freeing and the next position
(R124, R128, R132, R133, R465, R469, R474, R480, R481).
-/
namespace Sys2Proof.Machine

open Sys2Proof

/-! ### Overlay ownership (R465, R469) -/

/-- The OWNERSHIP data of an image (R465). -/
def Image.own (i : Image) : List Word := match i.sections with | [] => [] | x :: _ => x.data

/-- Bit n of a mask that starts at word k. -/
def maskBit (ws : List Word) (k n : Nat) : Bool := bit (ws.getD (k + n / 32) 0) (n % 32)

/-- An image owns terrace t, pin p, channel c. -/
def Image.ownsTerr (i : Image) (t : Nat) : Bool := maskBit i.own 1 t
def Image.ownsPin (i : Image) (p : Nat) : Bool := maskBit i.own 5 p
def Image.ownsChan (i : Image) (c : Nat) : Bool := maskBit i.own 18 c

/-- The units of a number range that an image owns. -/
def Image.terrs (i : Image) : List Nat := (List.range 128).filter i.ownsTerr
def Image.pins (i : Image) : List Nat := (List.range 416).filter i.ownsPin
def Image.chans (i : Image) : List Nat := (List.range 144).filter i.ownsChan

/-- The SEQ of an overlay image. -/
def Image.seq (i : Image) : Word := i.own.getD 0 0

namespace Cairn

/-- The fields of CAIRN_ACT and CAIRN_REP. -/
def kind (c : Cairn) : Nat := fld c.act 31 28
def report (c : Cairn) : Bool := bit c.act 27
def arg (c : Cairn) : Nat := fld c.act 23 0
def period (c : Cairn) : Nat := fld c.rep 31 16
def count (c : Cairn) : Nat := fld c.rep 15 0

/-- The position in phase steps. -/
def pos (c : Cairn) : Nat := posSteps c.sf c.fp

/-- A free slot (CAIRN_ACT.KIND 0). -/
def free (c : Cairn) : Bool := decide (c.kind = 0)

/-- The kinds a command binds, PLANE and CAPTURE. -/
def binds (c : Cairn) : Bool := decide (c.kind = 2) || decide (c.kind = 8)

/-- Positions of the Cairn a step from `old` to `new` passes over strictly, limited by COUNT (R133). -/
def passed (c : Cairn) (old new : Nat) : Nat :=
  let d := (new + fpModulus - old) % fpModulus
  let dp := (c.pos + fpModulus - old) % fpModulus
  if c.free ∨ fpModulus / 2 ≤ d ∨ dp = 0 ∨ d ≤ dp then 0
  else if c.period = 0 then 1
  else
    let n := 1 + (d - 1 - dp) / (c.period * stepsPerFrame)
    if c.count = 0xFFFF then n else min n (c.count + 1)

/-- The Cairn after n firings or misses; free when the last of them was its last (R132). -/
def after (n : Nat) (c : Cairn) : Cairn :=
  if c.count ≠ 0xFFFF ∧ c.count < n then {}
  else
    let p := (c.pos + n * c.period * stepsPerFrame) % fpModulus
    { sf := fpSf p, fp := fpFrPh p, act := c.act,
      rep := if c.count = 0xFFFF then c.rep else putFld c.rep 15 0 (c.count - n) }

end Cairn

namespace State

/-! ### The bound switch (R474, R480, R481) -/

/-- The binding of the overlay ends; SWITCH_PEND and NEXT read 0 again. An overlay that is no longer staged nor staging leaves
OVL_STAT.ID with it. -/
def unbindSwitch (s : State) : State :=
  let on := s.ovl.busy || s.ovl.ready
  { s with ovl := { s.ovl with
      bound := false, auto := false, autoAt := 0, cairn := 0, modeEnter := false
      id := if on then s.ovl.id else 0, image := if on then s.ovl.image else none } }

/-- The switch bound to slot k is withdrawn, an armed capture of slot k disarmed (R128, R529). -/
def withdrawBinding (s : State) (k : Nat) : State :=
  let s1 := if s.ovl.bound ∧ !s.ovl.auto ∧ s.ovl.cairn = k then s.unbindSwitch else s
  if s1.cap.armed ∧ s1.cap.cairn = k then { s1 with cap := { s1.cap with armed := false, cairn := 0, targets := [] } } else s1

/-- Free a slot and disarm it at its targets, with its binding (R128). -/
def cairnDrop (s : State) (k : Nat) : State := ((s.withdrawBinding k).setCairn k {}).mendAll (cairnWords k)

/-! ### After a firing or a miss (R132, R477, R480) -/

/-- The slot after a firing or a miss; a miss ends the binding, a PLANE's with its cause in OVL_STAT.REASON. -/
def cairnEnds (s : State) (k : Nat) (cause : Option Byte) : State :=
  let s1 := match cause with
    | none => s
    | some r =>
      (if (s.cairn k).kind = 2 ∧ s.ovl.bound ∧ !s.ovl.auto ∧ s.ovl.cairn = k then
        { s.unbindSwitch with ovl := { s.unbindSwitch.ovl with reason := r.toNat } }
      else s).withdrawBinding k
  s1.modCairn k (Cairn.after 1)

/-- Cairn k has fired or missed in this clock; its slot changes in the next. -/
def endsNext (s : State) (k : Nat) (cause : Option Byte) : State :=
  s.setTick { s.tick with ended := s.tick.ended ++ [(k, cause)] }

/-- Cairn k has fired or missed in this clock. -/
def endedNow (s : State) (k : Nat) : Bool := s.tick.ended.any (fun e => decide (e.1 = k))

/-- The next clock comes for the Cairns that have fired or missed. -/
def cairnsEnd (s : State) : State := s.tick.ended.foldl (fun (s : State) e => s.cairnEnds e.1 e.2) s

end State

end Sys2Proof.Machine
end

