-- ==== Sys2Proof/Machine/UserLogic.lean ====
section
/-!
DEFINITION. The user logic of the terraces (R276-R302, R309, R315, R316, R458, R460): the value of every wire of the crossbar
under the configuration in force, and one edge of the fabric's clocks.
-/
namespace Sys2Proof.Machine

open Sys2Proof

/-- A bit vector whose bit i is f i. -/
def bitsOf (w : Nat) (f : Nat → Bool) : BitVec w := BitVec.ofNat w ((List.range w).foldr (fun k n => 2 * n + (f k).toNat) 0)

/-- The plane that a terrace's wires are computed by: after a switch the old one until the first edge of a clock line of the
terrace (R478). -/
def Terrace.comb (x : Terrace) : List Word := if x.waits then x.old else x.config

/-- The configuration that clock line l of a terrace follows: after a switch the old one until the line's first edge (R129,
R478). -/
def Terrace.lineConfig (x : Terrace) (l : Nat) : List Word := if l ∈ x.late then x.old else x.config

/-- A terrace after an edge of the lines listed (R478). -/
def Terrace.rises (lines : List Nat) (x : Terrace) : Terrace :=
  if x.late = [] then x
  else { x with
    late := x.late.filter (fun l => !decide (l ∈ lines)), waits := x.waits && x.late.all (fun l => !decide (l ∈ lines)) }

/-- A Spur route that the fabric has: one of the 4 x 512 wires that arrive in terrace t, over a path of neighbours as long as
the Spur distance (R284). -/
def routeValid (r : SpurRoute) (t w : Nat) : Bool :=
  let path := r.source :: r.via ++ [t]
  decide (w < 2048) && decide (FabricCell.spurDistance r.source t = some (r.via.length + 1)) &&
    (path.zip (path.drop 1)).all (fun e => FabricCell.neighbours e.1 e.2)

/-- The fields of a pin's configuration word. -/
def pinHold (w : Word) : Nat := fld w 31 29
def pinCairn (w : Word) : Bool := bit w 28
def pinRatio (w : Word) : Nat := 2 ^ fld w 27 26
def pinStd (w : Word) : Nat := fld w 25 23
def pinDir (w : Word) : Nat := fld w 17 16
def pinTerr (w : Word) : Nat := fld w 6 0

/-- The slice of a terrace. -/
def UserLogic.slice (u : UserLogic) (n : Nat) : FabricCell.Slice := u.slices.getD n FabricCell.Slice.zero

/-- The memory port of a terrace, by 2m for A and 2m + 1 for B. -/
def UserLogic.port (u : UserLogic) (k : Nat) : MemPort := u.ports.getD k {}

/-- The number of a memory port. -/
def portNumber (p : BramPort) : Nat := 2 * p.mem + p.b.toNat

/-- A memory port takes a value. -/
def UserLogic.setPort (u : UserLogic) (k : Nat) (p : MemPort) : UserLogic :=
  { u with ports := ((List.range 64).map u.port).set k p }

/-- Bit k of what a memory port shows: its word, or behind its output register the word of a clock before (R302). -/
def MemPort.shows (p : MemPort) (reg : Bool) (k : Nat) : Bool :=
  if k = 128 then (if reg then p.outCe else p.ce)
  else if k = 129 then (if reg then p.outUe else p.ue)
  else ((if reg then p.out else p.q).getD (k / 64) 0).getLsbD (k % 64)

/-- A memory port after an edge at which it does nothing: CE and UE of the last read end, the output register follows. -/
def MemPort.idle (p : MemPort) : MemPort := { p with ce := false, ue := false, out := p.q, outCe := p.ce, outUe := p.ue }

/-- The scrub port of block memory m: the clocks counted and the address it reads now (R496). -/
def UserLogic.scrubPort (u : UserLogic) (m : Nat) : Nat × Option Nat := u.scrub.getD m (0, none)

/-- The outputs bay b keeps while it is held. -/
def UserLogic.kept (u : UserLogic) (b : Nat) : List Bool := Table.get (fun _ => []) u.heldOut b

/-- Bay b of a terrace is held for a repair or until a frame is restored (R309, R492, R493). -/
def Terrace.holds (x : Terrace) (now b : Nat) : Bool :=
  decide (x.heldBay = some b) && decide (now < x.heldUntil) || x.lost.any (fun f => decide (f.bay = b))

/-- A bay of a terrace is held (TC_STAT.REPAIR). -/
def Terrace.anyHeld (x : Terrace) (now : Nat) : Bool := x.heldBay.isSome && decide (now < x.heldUntil) || !x.lost.isEmpty

/-- A scrubber after reads at the interval's end, one after the other; the shadow plane is skipped while it is being staged. -/
def Scrubber.after (c : Scrubber) (ps interval : Nat) (skip : Bool) : Scrubber :=
  let limit := if skip then 4608 else 9216
  let total := c.since + ps
  let k := total / interval
  let next := (if c.next < limit then c.next + k else k) % limit
  { next := next, since := total % interval
    reads := if k ≠ 0 ∧ total % interval = 0 then some ((next + limit - 1) % limit) else none }

/-- The ADCs run from now on: the die sensors and the references are due (R544, R551, R552). -/
def Monitor.start (m : Monitor) (now : Nat) : Monitor :=
  if m.adcOn then m else { m with adcOn := true, dieDue := now, refDue := [(0, now), (1, now)] }

/-- The enable of clock line l. -/
def UserLogic.gate (u : UserLogic) (l : Nat) : LineGate := u.gates.getD l {}

/-- A pin takes the configuration of an overlay switch (R320). -/
def Pin.switch (x : Pin) : Pin :=
  match x.next with
  | some (w, n) => { x with cfg := w, src := n, next := none }
  | none => x

/-- No scrub port of a terrace reads a word yet in a time step that begins (R496). -/
def UserLogic.unread (u : UserLogic) : UserLogic :=
  if u.scrub.all (fun x => x.2.isNone) then u else { u with scrub := u.scrub.map (fun x => (x.1, none)) }

/-- A line enable takes a value. -/
def UserLogic.setGate (u : UserLogic) (l : Nat) (g : LineGate) : UserLogic :=
  { u with gates := ((List.range 4).map u.gate).set l g }

/-- User logic drives a line's enable: a change acts on the second edge of the line's source after it (R342). -/
def LineGate.drive (g : LineGate) (on : Bool) : LineGate :=
  if (g.due.getLast?.map (·.2)).getD g.on = on then g else { g with due := g.due ++ [(2, on)] }

/-- An edge of the line's source: the change whose second edge it is acts, from this edge on. -/
def LineGate.edge (g : LineGate) : LineGate :=
  let l := g.due.map (fun d => (d.1 - 1, d.2))
  { on := ((l.filter (fun d => decide (d.1 = 0))).getLast?.map (·.2)).getD g.on, due := l.filter (fun d => decide (d.1 ≠ 0)) }

/-- The drive of a hold state: drive 0, drive 1, or none (R320). -/
def holdDrive (w : Word) : Option Bool :=
  if pinHold w = 4 then some false else if pinHold w = 5 then some true else none

/-- The weak pull of a hold state that drives nothing. -/
def holdPull (w : Word) : Option Bool :=
  if pinHold w = 0 then some false else if pinHold w = 1 then some true else none

/-- A pin is one of an LVDS pair (R314). -/
def isLvds (w : Word) : Bool := decide (2 ≤ pinStd w) && decide (pinStd w < 5)

/-- The port that carries a pin's data: its own, or the even pin's of an LVDS pair (R314). -/
def dataPin (w : Word) (p : Nat) : Nat := if isLvds w then p - p % 2 else p

/-- What a pin's stage lets act on it (R320): no supply; the weak pull-down of an unconfigured or faulty pin; its hold state;
Cairn drive; user drive. -/
inductive PinStage where
  | unpowered | pulled | hold | cairn | user
deriving DecidableEq, Repr

/-- A wire of a terrace: an input of the crossbar, a source of it, or the carry-in of a cell. -/
inductive FabNode where
  | input (i : FabInput)
  | source (x : FabSource)
  | carry (c : Nat)

/-- What a capture holds of terrace t. -/
def Capture.snapOf (c : Capture) (t : Nat) : Snapshot :=
  match c.snaps.find? (fun x => decide (x.1 = t)) with | some x => x.2 | none => {}

/-- The lines of terrace t whose values a capture has still to take. -/
def Capture.open_ (c : Capture) (t : Nat) : List Nat := (List.range 4).filter (fun l => !decide ((t, l) ∈ c.fixed))

namespace State

/-! ### Clock lines (R290, R342) -/

/-- The fabric PLL and output of source n of ridge r (R290). -/
def sourcePll (r n : Nat) : Nat × Nat := (2 * r + n / 4, n % 4)

/-- Output k of PLL p runs: the PLL runs and its Dk is not 0 (R327). -/
def pllOut (s : State) (p k : Nat) : Bool :=
  (s.pll p).running && decide (s.rf (aPll p + 0x10) (8 * k + 7) (8 * k) ≠ 0)

/-- A terrace whose configuration and clocks are in place. -/
def terrUp (s : State) (t : Nat) : Bool :=
  (s.terr t).configured && s.domainOn (terraceId t) && s.gateOpen (terraceId t)

/-- The fabric clock source of line l in the configuration in force; none when off. -/
def lineSource (s : State) (t l : Nat) : Option Nat :=
  let x := s.terr t
  if x.configured then
    let n := fld (Config.terraceInfo (x.lineConfig l) 1) (8 * l + 7) (8 * l)
    if n < 8 then some n else none
  else none

/-- The image marks line l as user-gated (R342). -/
def lineGated (s : State) (t l : Nat) : Bool := bit (Config.terraceInfo ((s.terr t).lineConfig l) 0) (2 + l)

def user (s : State) (t : Nat) : UserLogic := Table.get (fun _ => {}) s.fab t
def setUser (s : State) (t : Nat) (u : UserLogic) : State := { s with fab := Table.set (fun _ => {}) s.fab t u }
def modUser (s : State) (t : Nat) (f : UserLogic → UserLogic) : State := s.setUser t (f (s.user t))

/-- The source of clock line l of terrace t gives it edges: its output runs and nothing stops the terrace's lines. -/
def lineFed (s : State) (t l : Nat) : Bool :=
  match s.lineSource t l with
  | none => false
  | some n => s.terrUp t && (let (p, k) := sourcePll (t / 32) n; s.pllOut p k)

/-- Clock line l of terrace t runs. -/
def lineRuns (s : State) (t l : Nat) : Bool := s.lineFed t l && (!s.lineGated t l || ((s.user t).gate l).on)

/-- The clock line of a part of terrace t. -/
def lineOf (s : State) (t : Nat) (c : FabClock) : Nat := Config.clockLine (s.terr t).config c % 4

/-- A hard port whose clock line runs can transfer, in a terrace that has started (R290). The ports: 0 the general
Cistern's write port, 1 its read port and those of receive Cisterns, 2 the Orchard port, 3 the launch port, 4 the pressure
port, 5 the window port. -/
def portClocked (s : State) (t h : Nat) : Bool :=
  s.terrUp t && (s.terr t).started && s.lineRuns t (s.lineOf t (.hard h))

/-! ### Block memories (R299-R304) -/

/-- The place of half-word h of a block memory in the table of contents. -/
def bramKey (t m h : Nat) : Nat := (t * 32 + m) * 1024 + h

/-- What a block memory word holds until it is written: its part of the BRAM section, or 0 (R304). -/
def bramDefault (s : State) (k : Nat) : Word64 :=
  match (s.terr (k / 32768)).bramSec with
  | [] => 0
  | sec => Config.bramInit sec (k / 1024 % 32) (k % 1024)

/-- Half-word h of block memory m of terrace t. -/
def bramWord (s : State) (t m h : Nat) : Word64 := Table.get s.bramDefault s.bram (bramKey t m h)

/-- Its check bits as stored. -/
def bramCheck (s : State) (t m h : Nat) : Byte :=
  Table.get (fun k => Config.bramCode (s.bramDefault k)) s.bramCodes (bramKey t m h)

/-- Half-words from h on are stored with the check bits computed from them (R300). -/
def bramPut (s : State) (t m h : Nat) (ws : List Word64) : State :=
  { s with
    bram := Table.setList s.bramDefault s.bram (bramKey t m h) ws
    bramCodes := Table.setList (fun k => Config.bramCode (s.bramDefault k)) s.bramCodes (bramKey t m h) (ws.map Config.bramCode) }

/-! ### The user logic of a terrace -/


def pad (s : State) (p : Nat) : Pad := Table.get (fun _ => {}) s.pads p

/-- Its wires carry values to other terraces: powered, configured and started (R285). -/
def terrLive (s : State) (t : Nat) : Bool :=
  (s.terr t).configured && s.domainOn (terraceId t) && (s.terr t).started

/-- A terrace's driver drives a Spine: its enable is 1 and its TC_CONT bit is 0 (R288, R289, R308). -/
def spineDrives (s : State) (t n : Nat) : Bool :=
  s.terrLive t && (Config.spineDriver (s.terr t).comb n).isSome && (s.user t).spines.getLsbD n &&
    !s.rb (aTerr t + 0x20 + 4 * (n / 32)) (n % 32) && !decide ((t, n) ∈ s.tick.clash)

/-- The terraces of a ridge whose drivers drive a Spine. -/
def spineOn (s : State) (r n : Nat) : List Nat := ((List.range 32).map (fun k => 32 * r + k)).filter (fun t => s.spineDrives t n)

/-- The drivers in contention: two or more drive one Spine (R288). -/
def clashes (s : State) : List (Nat × Nat) :=
  (List.range 512).flatMap (fun k =>
    let on := s.spineOn (k / 128) (k % 128)
    if 2 ≤ on.length then on.map (fun t => (t, k % 128)) else [])

/-! ### Pins (R313-R320) -/

/-- The boundary-scan instructions that drive act only in BOOT with no base image (R542). -/
def jtagActs (s : State) : Bool := decide (s.mode = .boot) && s.boot.base.isNone

/-- The pins of a bank are pulled down since its VIO left its window: until VIO has been in it for 10 ms and VIO_BAD is
cleared (R321). -/
def bankHeld (s : State) (b : Nat) : Bool :=
  let x := s.bank b
  x.held && !(x.ok && decide (x.until_ ≤ s.now) && !s.rb (aBank b) 30)

/-- The fabric clock source of a pin's bank clock; 8 or more is off (R315). -/
def padSource (s : State) (p : Nat) : Nat := let b := s.bank (p / 32); if bit (s.pin p).cfg 7 then b.src1 else b.src0

/-- The span in ps of a word of a pin: a period of its bank clock (R315, R327). -/
def wordPs (s : State) (p : Nat) : Nat :=
  let (q, k) := sourcePll (bankRidge (p / 32)) (s.padSource p)
  let hz := outHz (s.refFreq (s.pllOn q)) (s.rf (aPll q + 0xC) 31 24) (s.rf (aPll q + 0xC) 23 0)
    (s.rf (aPll q + 0x10) (8 * k + 7) (8 * k))
  max 1 (10 ^ 12 / hz)

/-- The stage of a pin (R320, R321). -/
def pinStage (s : State) (p : Nat) : PinStage :=
  let x := s.pin p
  let b := s.bank (p / 32)
  if b.meas = 0 then .unpowered
  else if s.pwr.held ∨ s.bankHeld (p / 32) ∨ s.rb (aBank (p / 32)) 30 ∨ !x.configured then .pulled
  else if s.mode = .stop ∨ pinStd x.cfg = 0 then .hold
  else if pinCairn x.cfg then (if s.boot.started then .cairn else .hold)
  else if s.terrLive (pinTerr x.cfg) then .user
  else .hold

/-- What the serialiser of a fabric-driven pin drives now: a bit of its word, bit 0 first, inverted on the N pin of a pair; nothing while its
output enable is 0, or in a direction or standard without an output (R313-R316). -/
def userDrive (s : State) (p : Nat) : Option Bool :=
  let w := (s.pin p).cfg
  let d := s.pad (dataPin w p)
  if pinDir w = 0 ∨ pinStd w = 3 ∨ pinStd w = 4 ∨ !d.enable then none
  else
    let n := d.sent.length
    some (d.sent.getD (min (n - 1) ((s.now - d.sentAt) * n / s.wordPs p)) false != (isLvds w && decide (p % 2 = 1)))

/-- What the output driver of a pin drives; none while it is disabled (R320, R542). -/
def pinDrive (s : State) (p : Nat) : Option Bool :=
  let x := s.pin p
  if s.jtagActs && s.jtag.highz then none
  else if s.jtagActs && s.jtag.driving then s.jtag.boundary[p]?
  else match s.pinStage p with
    | .unpowered | .pulled => none
    | .hold => holdDrive x.cfg
    | .cairn => if x.cairnOe then some x.cairnVal else none
    | .user => s.userDrive p

/-- The level a pin's bus keeper holds; none when nothing has driven the pin since its VIO rose. -/
def kept (s : State) (p : Nat) : Option Bool := Table.get (fun _ => none) s.keepers p

/-- The level a pin's weak pull or keeper gives an undriven ball; none without one (R320). -/
def pinPull (s : State) (p : Nat) : Option Bool :=
  let w := (s.pin p).cfg
  match s.pinStage p with
  | .unpowered => none
  | .pulled => some false
  | .hold => holdPull w
  | _ => match fld w 19 18 with
    | 1 => some false
    | 2 => some true
    | 3 => (s.kept p).or (some (Config.keeperLevel p (s.bank (p / 32)).rose))
    | _ => none

/-- What drives the ball of a pin: the device, or something outside it. -/
def ballDrive (s : State) (p : Nat) : Option Bool := (s.pinDrive p).or (Config.ballDrive p s.now)

/-- The level at a pin's ball (IO_PAD_IN). -/
def pinLevel (s : State) (p : Nat) : Bool := ((s.ballDrive p).or (s.pinPull p)).getD (Config.ballLevel p s.now)

/-- The keepers after a time step: they follow what drives the balls now; without VIO they hold nothing. -/
def keepersNow (s : State) : Table (Option Bool) :=
  (List.range 416).foldl (fun (k : Table (Option Bool)) p =>
    if (s.bank (p / 32)).meas = 0 then Table.set (fun _ => none) k p none
    else match s.ballDrive p with
      | some v => Table.set (fun _ => none) k p (some v)
      | none => k) s.keepers

/-! ### The wires of a terrace (R278-R286) -/

/-- Bit k of the request the window port presents (R305). -/
def windowBit (s : State) (t k : Nat) : Bool :=
  match (s.terr t).window with
  | [] => false
  | r :: _ =>
    if k < 15 then r.addr.testBit (k + 2) else if k = 15 then r.write else if k = 16 then r.peek else r.data.getLsbD (k - 17)

/-- The level of a wire of a hard port toward user logic of terrace t (R207, R209, R215, R233). -/
def hardOut (s : State) (t : Nat) (x : HardOut) : Bool :=
  match x with
  | .valid i => bit (s.cisHead i).1 31
  | .tag i k => bit (s.cisHead i).1 k
  | .data i k => bit ((s.cisHead i).2.getD (k / 32) 0) (k % 32)
  | .ready => s.cisEn (144 + t) && !(s.cis (144 + t)).flushing && !(s.cis (144 + t)).resetting && s.cisRoom (144 + t)
  | .xoff => (s.user t).pressure
  | .other p k => Config.hardLevel t p k s.now

/-- The value of a wire of terrace t, over a fuel that no path without a loop uses up. -/
def wire : Nat → State → Nat → FabNode → Bool
  | 0, s, t, _ => Config.loopLevel t s.now
  | n + 1, s, t, node =>
    let cfg := (s.terr t).comb
    let u := s.user t
    let src := fun (v : Nat) (k : Nat) => wire n s v (.source (Config.stage1 (s.terr v).comb k))
    -- what another terrace's output gives a Spur or a Spine: a gated terrace keeps its last value (R339)
    let out := fun (v : Nat) (k : Nat) =>
      if s.gateOpen (terraceId v) then src v k else (Table.get (fun _ => none) (s.user v).spurKept k).getD false
    let spur := fun (w : Nat) =>
      let r := Config.spurRoute cfg w
      FabricCell.spurRead (s.terrLive r.source) (routeValid r t w && r.via.all (fun v => s.domainOn (terraceId v))) (out r.source r.out)
    let spine := fun (m : Nat) =>
      match s.spineOn (t / 32) m with
      | [v] => (match Config.spineDriver (s.terr v).comb m with | some d => out v d.1 | none => false)
      | _ => false
    match node with
    | .input i =>
      match Config.stage2 cfg i with
      | .stage1 k => src t k
      | .spur w => spur w
      | .spine m => spine m
    | .carry c =>
      match Config.chainStart cfg c with
      | 1 => false
      | 2 => true
      | 3 => wire n s t (.input (.carryIn c))
      | _ => if c % 512 = 0 then false else wire n s t (.source (.cell (c - 1) 3))
    | .source x =>
      match x with
      | .cell c k =>
        if k < 4 ∧ (s.terr t).holds s.now (c / 64) then (u.kept (c / 64)).getD (4 * (c % 64) + k) false
        else
          let ins := fun (m : Nat) => (List.range m).map (fun j => wire n s t (.input (.lut c j)))
          let lut := Config.cellLut cfg c
          let o6 := fun (_ : Unit) => FabricCell.lutAt lut.getLsbD (ins 6)
          match k with
          | 0 => o6 ()
          | 1 => if Config.cellSplit cfg c then FabricCell.lutAt lut.getLsbD (ins 5) else Config.idleO5 cfg c
          | 2 => FabricCell.sumOut (o6 ()) (wire n s t (.carry c))
          | 3 => FabricCell.carryOut (o6 ()) (wire n s t (.input (.lut c 5))) (wire n s t (.carry c))
          | _ => u.ff.getLsbD (2 * c + (k - 4))
      | .slice m k => if k = 64 then (u.slice m).ovf else (u.slice m).p.getLsbD k
      | .bram p k => (u.port p).shows (Config.portRegister cfg p) k
      | .spur w => spur w
      | .spine m => spine m
      | .strobe k => decide (k ∈ u.strobes)
      | .framePos k => (fpForm s.tb.fp).getLsbD k
      | .devTime k => (timeForm s.tb.devTime).getLsbD k
      | .pin p k =>
        let w := (s.pin p).cfg
        decide (pinTerr w = t) && decide (pinStd w ≠ 0) && decide (dataPin w p = p) && (s.pad p).got.getD k false
      | .window k => s.windowBit t k
      | .stim k => bit (s.reg 0xE80060) k
      | .hard x => s.hardOut t x

/-- The fuel of `wire`: above the number of wires of a ridge. -/
def wireFuel : Nat := 2 ^ 32

/-- The value of an input of terrace t. -/
def inputBit (s : State) (t : Nat) (i : FabInput) : Bool := wire wireFuel s t (.input i)

/-- Wires of a hard port of terrace t spell a number, bit 0 first. -/
def hardSpells (s : State) (t : Nat) (wires : Nat → HardIn) (bits value : Nat) : Bool :=
  (List.range bits).all (fun k => decide (s.inputBit t (.hard (wires k)) = value.testBit k))

/-- The value of a source of terrace t. -/
def sourceBit (s : State) (t : Nat) (x : FabSource) : Bool := wire wireFuel s t (.source x)

/-! ### One edge of the clock sources (R280, R288, R298, R302, R315) -/

/-- Bay b is out of reset: the terrace has started, or the fourth edge of the bay's line since the release instant has
passed (R460). -/
def bayFree (s : State) (t b : Nat) : Bool :=
  (s.terr t).started || decide (4 ≤ (s.user t).edges.getD (s.lineOf t (.bay b)) 0)

/-- What flip-flop k takes at an edge of its bay's line (R278, R280). A synchronous reset acts whatever the clock enable
(DESIGN CHOICE, log entry 56). -/
def ffNext (s : State) (t k : Nat) : Bool :=
  let cfg := (s.terr t).comb
  let c := k / 2
  if !s.bayFree t (c / 64) then Config.ffReset cfg k
  else if (s.terr t).holds s.now (c / 64) then (s.user t).ff.getLsbD k
  else if s.inputBit t (.reset (c / 64)) then Config.ffReset cfg k
  else if s.inputBit t (.enable c) then
    match Config.ffSource cfg k with
    | 0 => s.sourceBit t (.cell c 0)
    | 1 => s.sourceBit t (.cell c 1)
    | 2 => s.sourceBit t (.cell c 2)
    | _ => s.inputBit t (.bypass c)
  else (s.user t).ff.getLsbD k

/-- A slice's inputs from the crossbar (R296). -/
def sliceIn (s : State) (t n : Nat) : FabricCell.SliceIn :=
  let f := fun (field w : Nat) => bitsOf w (fun k => s.inputBit t (.slice n field k))
  let op := f 4 6
  { a := f 0 27, b := f 1 24, d := f 2 27, c := f 3 64,
    op := { pre := op.extractLsb' 0 2, zsel := op.extractLsb' 2 2, sub := op.getLsbD 4, sat := op.getLsbD 5 } }

/-- A slice after an edge: PCIN is P of the slice below in its column, 0 at the foot (R296, R298). -/
def sliceNext (s : State) (t n : Nat) : FabricCell.Slice :=
  let u := s.user t
  if (s.terr t).started then
    FabricCell.sliceClock (u.slice n) (s.sliceIn t n) (if n % 16 = 0 then 0 else (u.slice (n - 1)).p)
  else u.slice n

/-- The scrub port of block memory m after an edge of the lines listed: it counts the clocks of port A's line, or of port B's
while A's does not run, and reads a word at every 64th (R496). -/
def scrubNext (s : State) (t m : Nat) (lines : List Nat) : Nat × Option Nat :=
  let a := s.lineOf t (.bram (2 * m))
  let l := if s.lineRuns t a then a else s.lineOf t (.bram (2 * m + 1))
  let x := (s.user t).scrubPort m
  let n := (x.1 + 1) % 65536
  if l ∈ lines then (n, if n % 64 = 0 then some ((n / 64 + 1023) % 1024) else x.2) else x

/-- The pressure port of terrace t after an edge of its clock line: a lookup is answered two clocks after it was asked (R233). -/
def pressureNext (s : State) (u : UserLogic) : UserLogic :=
  let asks := u.asks.map (fun e => (e.1 - 1, e.2))
  { u with
    asks := asks.filter (fun e => decide (e.1 ≠ 0))
    pressure := match asks.find? (fun e => decide (e.1 = 0)) with | some e => (s.queue e.2).xoff | none => u.pressure }

/-- The scrubber of terrace t runs: EN, configured, its domain on and its gate open (R491). -/
def scrubs (s : State) (t : Nat) : Bool := s.rb (aTerr t + 0x10) 31 && s.terrUp t

/-- The terraces after a span in which their scrubbers read a frame every INTERVAL x 100 ns (R491). -/
def scrubbed (s : State) (ps : Nat) : Table Terrace :=
  if ps = 0 then s.terraces
  else Table.mapAll (fun _ => {}) s.terraces (fun t x =>
    if s.scrubs t then
      { x with scrub := x.scrub.after ps (100000 * max 1 (s.rf (aTerr t + 0x10) 23 16)) x.stagingShadow }
    else { x with scrub := { x.scrub with reads := none } })

/-- The plane that an element of terrace t captures by at an edge of the lines listed, as the state in which its inputs are
computed: the old plane at the first edge of its line since a switch, else the new one; none where its line does not rise
(R478). -/
def capture (s : State) (t : Nat) (lines : List Nat) (c : FabClock) : Option State :=
  let x := s.terr t
  let old := Config.clockLine x.old c % 4
  let new := s.lineOf t c
  if x.late = [] then (if new ∈ lines then some s else none)
  else if old ∈ lines ∧ old ∈ x.late then some (s.setTerr t { x with waits := true })
  else if new ∈ lines ∧ new ∉ x.late then some (s.setTerr t { x with waits := false })
  else none

/-- The user logic of terrace t after an edge of the lines listed, with the line enables given; every value captured is that
before the edge. -/
def userNext (s : State) (t : Nat) (lines : List Nat) (gates : List LineGate) : UserLogic :=
  if lines.isEmpty then { s.user t with gates := gates } else
  let u := s.user t
  let counts := s.boot.releasing || (s.terr t).releaseDue
  let u1 := if (s.capture t lines (.hard 4)).isSome then s.pressureNext u else u
  { u1 with
    ff := bitsOf 65536 (fun k => match s.capture t lines (.bay (k / 128)) with | some v => v.ffNext t k | none => u.ff.getLsbD k)
    slices := (List.range 48).map (fun n => match s.capture t lines (.slice n) with | some v => v.sliceNext t n | none => u.slice n)
    ports := (List.range 64).map (fun p => if (s.capture t lines (.bram p)).isSome then (u.port p).idle else u.port p)
    spines := bitsOf 128 (fun n => match s.capture t lines (.spine n) with
      | some v =>
        (match Config.spineDriver (v.terr t).comb n with
          | some d => v.sourceBit t (Config.stage1 (v.terr t).comb d.2)
          | none => false)
      | none => u.spines.getLsbD n)
    gates := gates
    scrub := (List.range 32).map (fun m => s.scrubNext t m lines)
    edges := (List.range 4).map (fun l => u.edges.getD l 0 + (if counts ∧ l ∈ lines then 1 else 0))
    strobes := u.strobes.filter (fun k => (s.capture t lines (.strobe k)).isNone) }

/-- The source of line l of terrace t is among the sources listed, and gives the line an edge. -/
def lineEdge (s : State) (t : Nat) (e : List Nat) (l : Nat) : Bool :=
  s.lineFed t l && (match s.lineSource t l with | some n => decide (8 * (t / 32) + n ∈ e) | none => false)

/-- The line enables of terrace t when the sources listed rise (R342). -/
def gatesNext (s : State) (t : Nat) (e : List Nat) : List LineGate :=
  let u := s.user t
  if u.gates.all (fun g => g.due.isEmpty) then u.gates
  else (List.range 4).map (fun l => if s.lineEdge t e l then (u.gate l).edge else u.gate l)

/-- The lines of terrace t that rise when the sources listed do, by the enables that act from this edge on. -/
def linesUp (s : State) (t : Nat) (e : List Nat) : List Nat :=
  (List.range 4).filter (fun l => s.lineEdge t e l && (!s.lineGated t l || ((s.gatesNext t e).getD l {}).on))

/-- The word a pin's fabric port gives its serialiser, and its output enable. -/
def padWord (s : State) (p : Nat) (d : Pad) : Pad :=
  { d with
    live := true
    before := d.sent
    sent := (List.range (pinRatio (s.pin p).cfg)).map (fun k => s.inputBit (pinTerr (s.pin p).cfg) (.pinWord p k))
    sentAt := s.now
    enable := s.inputBit (pinTerr (s.pin p).cfg) (.pinEnable p) }

/-- Bit k of the word a pin's deserialiser has received when its bank clock rises, the first bit received bit 0. The bits of
the two words that have just ended stand in a row; each SLIP has moved the boundary one bit later in it. A pin receives what it
drives itself, or what stood at its ball when the bit passed the input delay line, 25 ps for each tap before (R316). -/
def padIn (s : State) (p k : Nat) : Bool :=
  let w := (s.pin p).cfg
  let d := s.pad p
  let n := pinRatio w
  let r := (s.pin p).slips % n
  let i := (if r = 0 then n else r) + k
  match s.pinStage p, s.pinDrive p with
  | .user, some _ => (if i < n then d.before.getD i false else d.sent.getD (i - n) false) != (isLvds w && decide (p % 2 = 1))
  | _, some v => v
  | _, none => (Config.ballDrive p (s.now + i * s.wordPs p / n - 2 * s.wordPs p - 25 * fld w 12 8)).getD
      ((s.pinPull p).getD (Config.ballLevel p s.now))

/-- A pin's serialiser takes its next word, in the plane `s1`, and its deserialiser has received one (R315, R316). A pin whose
owner has not started or is held for repair repeats its last word (R320). -/
def padNext (s s1 : State) (p : Nat) : Pad :=
  let d := s.pad p
  let t := pinTerr (s1.pin p).cfg
  let next := if !s1.terrLive t || (s1.terr t).anyHeld s.now then { d with live := true, before := d.sent, sentAt := s.now }
    else s1.padWord p d
  { next with got := (List.range (pinRatio (s.pin p).cfg)).map (s.padIn p), words := d.words + 1 }

/-- User drive begins: the serialisers of terrace t's pins hold the words of its ports (R320, R460). -/
def padStart (s : State) (t : Nat) : State :=
  { s with pads := s.pins.foldl (fun (f : Table Pad) x =>
      if pinTerr x.2.cfg = t then Table.set (fun _ => {}) f x.1 (s.padWord x.1 (s.pad x.1)) else f) s.pads }

/-- The word clock of a pin rises with the sources listed: the bank clock that CLK names (R315). -/
def padUp (s : State) (p : Nat) (e : List Nat) : Bool :=
  let n := s.padSource p
  let r := bankRidge (p / 32)
  decide (n < 8) && (let (q, k) := sourcePll r n; s.pllOut q k) && decide (8 * r + n ∈ e)

/-- The pins after an edge of the sources listed: at the first edge of its bank clock since an overlay switch a pin takes its new
configuration (R320). -/
def pinsRise (s : State) (e : List Nat) : Table Pin :=
  if s.pins.any (fun x => x.2.next.isSome) then
    Table.mapAll (fun _ => {}) s.pins (fun p x => if s.padUp p e then x.switch else x)
  else s.pins

/-- The time `at_` of an edge has come: the time values stand as they are then. -/
def atEdge (s : State) (at_ : Nat) : State :=
  { s with now := at_, tb := if s.tbOn then s.tb.run ((at_ - s.now) / 2000) else s.tb }

/-- A capture takes the lines listed of its terraces, with what their flip-flops and slices hold now (R310, R527). -/
def takes (s : State) (c : Capture) (ls : Nat → List Nat) : Capture :=
  { c with
    snaps := c.targets.map (fun t =>
      let old := c.snapOf t
      let u := s.user t
      (t, {
        ff := bitsOf 65536 (fun k => if s.lineOf t (.bay (k / 128)) ∈ ls t then u.ff.getLsbD k else old.ff.getLsbD k)
        slices := (List.range 48).map (fun n =>
          if s.lineOf t (.slice n) ∈ ls t then u.slice n else old.slices.getD n FabricCell.Slice.zero) }))
    fixed := c.fixed ++ c.targets.flatMap (fun t => (ls t).map (fun l => (t, l)))
    repaired := c.targets.filter (fun t => decide (t ∈ c.repaired) || (!(ls t).isEmpty && (s.terr t).anyHeld s.now)) }

/-- The capture at an edge of the sources listed, after which the user logic is that of `s1`: from the capture position on, a line
that does not run yields what it holds, and each other line captures on its first rising edge (R527). -/
def capEdge (s s1 : State) (e : List Nat) : Capture :=
  if s.cap.taking && reached s.tb.fp s.cap.position then
    let c := if s.cap.begun then s.cap
      else { s.takes s.cap (fun t => (s.cap.open_ t).filter (fun l => !s.lineRuns t l)) with begun := true }
    let up := fun (t : Nat) => (c.open_ t).filter (fun l => decide (l ∈ s.linesUp t e))
    { s1.takes c up with lines := c.lines ++ c.targets.flatMap (fun t => (up t).map (fun l => (t, l))) }
  else s.cap

/-- One edge of the sources listed: everything clocked by them takes its next value together (R291), and the contention
detectors compare the drivers (R288). -/
def fabricEdge (s : State) (e : List Nat) : State :=
  let s1 := { s with pins := s.pinsRise e }
  let s2 : State := { s1 with
    fab := s.fab.foldl (fun (f : Table UserLogic) x =>
      Table.set (fun _ => {}) f x.1 (s.userNext x.1 (s.linesUp x.1 e) (s.gatesNext x.1 e))) s.fab
    terraces := if s.terraces.all (fun x => decide (x.2.late = [])) then s.terraces
      else Table.mapAll (fun _ => {}) s.terraces (fun t x => x.rises (s.linesUp t e))
    pads := s.pins.foldl (fun (f : Table Pad) x =>
      if s.padUp x.1 e then Table.set (fun _ => {}) f x.1 (s.padNext s1 x.1) else f) s.pads
    keepers := s.pins.foldl (fun (k : Table (Option Bool)) x =>
      match s.padUp x.1 e, s.pinStage x.1, s.userDrive x.1 with
      | true, .user, some _ => Table.set (fun _ => none) k x.1
          (some ((s.pad (dataPin x.2.cfg x.1)).sent.getLastD false != (isLvds x.2.cfg && decide (x.1 % 2 = 1))))
      | _, _, _ => k) s.keepers }
  let s3 := { s2 with cap := s.capEdge s2 e }
  if s3.fab.all (fun x => decide (x.2.spines = 0)) then s3
  else s3.setTick { s3.tick with clash := s3.tick.clash ++ s3.clashes }

/-- The settings of the fabric PLLs: FB, DIV, CTRL, and the spread in force (R327, R335). -/
def fabricPlls (s : State) : List (List Word) :=
  (List.range 8).map (fun p => [s.reg (aPll p + 0xC), s.reg (aPll p + 0x10), s.reg (aPll p), s.pllSpread p])

/-- The user logic and the pads after a span of ps. -/
def fabricRun (s : State) (ps : Nat) : State :=
  if ps = 0 ∨ (s.fab = [] ∧ s.pins = []) then s
  else
    let s0 := { s with fab := Table.mapAll (fun _ => {}) s.fab (fun _ u => u.unread), tick := s.tick.after 1 }
    (Config.sourceEdges s.fabricPlls s.now (s.now + ps)).foldl
      (fun (x : State) e => fabricEdge { x with now := (s0.atEdge e.1).now, tb := (s0.atEdge e.1).tb } e.2) s0

/-! ### Beginnings and holds -/

/-- A terrace that a base image configures: its flip-flops at the image's reset values, its slices 0 (R280, R458). -/
def userInit (s : State) (t : Nat) : State :=
  s.setUser t { live := true, ff := bitsOf 65536 (Config.ffReset (s.terr t).config) }

/-- The terrace's user logic is gone (R308, R458). -/
def userGone (s : State) (t : Nat) : State := s.setUser t {}

/-- The stage 1 outputs of terrace t that its Spurs and Spine drivers carry (R284, R286). -/
def carried (s : State) (t : Nat) : List Nat :=
  ((List.range 32).flatMap (fun v => (List.range 2048).filterMap (fun w =>
    let r := Config.spurRoute (s.terr (t / 32 * 32 + v)).comb w
    if r.source = t then some r.out else none))) ++
  (List.range 128).filterMap (fun n => (Config.spineDriver (s.terr t).comb n).map (·.1))

/-- The gate of terrace t closes: its Spur outputs and Spine drivers keep their values (R339). -/
def userGated (s : State) (t : Nat) : State :=
  if !(s.user t).live then s
  else
    let kept := (s.carried t).foldl (fun (k : Table (Option Bool)) n =>
      Table.set (fun _ => none) k n (some (s.sourceBit t (Config.stage1 (s.terr t).comb n)))) []
    s.modUser t (fun u => { u with spurKept := kept })

/-- The outputs bay b has now, which it keeps while it is held (R309). -/
def userHold (s : State) (t b : Nat) : State :=
  let outs := (List.range 256).map (fun k => s.sourceBit t (.cell (64 * b + k / 4) (k % 4)))
  s.modUser t (fun u => { u with heldOut := Table.set (fun _ => []) u.heldOut b outs })

end State

end Sys2Proof.Machine
end

