-- ==== Sys2Proof/Machine/Ops.lean ====
section
/-!
DEFINITION. The named operations over the state that every family uses: the passing of time, the error log, the trace
trigger, replies of the Gatehouse, integrity stop and device reset.
-/
namespace Sys2Proof.Machine

open Sys2Proof

/-! ### Trace trigger and error log -/

/-- A STOP_ON event of the trace (R541). -/
def State.traceStop (s : State) (code : Nat) : State :=
  if s.trace.run ∧ s.rf 0xE80000 9 7 = code ∧ !s.trace.triggered then
    { s with trace := { s.trace with
        triggered := true
        left := s.rf 0xE80000 31 16
        run := decide (s.rf 0xE80000 31 16 ≠ 0) } }
  else s

/-- The trace takes packets of a class and source (R539). -/
def State.traceTakes (s : State) (cls src : Nat) : Bool :=
  match cls with
  | 0 => true
  | 1 => s.rb (0xE80010 + 4 * (src / 32)) (src % 32)
  | 2 => s.rb 0xE8000C 2
  | 3 => s.rb 0xE8000C 3
  | 4 => s.rb 0xE80028 10 && decide (s.rf 0xE80028 9 0 = src)
  | 5 => s.rb (0xE80018 + 4 * (src / 32)) (src % 32)
  | _ => s.rb 0xE8002C 8 && decide (s.rf 0xE8002C 7 0 = src)

/-- An event of the device sends a trace packet (R539). -/
def State.traceMake (s : State) (cls src kind : Nat) (d0 d1 : Word) : State :=
  if s.trace.run && s.traceTakes cls src then
    { s with trace := { s.trace with made := s.trace.made ++ [⟨cls, src, kind, fpFrPh s.tb.fp, d0, d1⟩] } }
  else s

/-- The low word of the seconds of a Device Time. -/
def secondsWord (t : Nat) : Word := w32 (t / dtPerSec)

/-- The SYNC packets of the superframes that begin in n clocks of the timebase (R539). -/
def Timebase.syncs (n : Nat) (t : Timebase) : List TracePkt :=
  let sf := t.fp / stepsPerSf
  (List.range ((t.fp + (t.fpAcc + n * fpInc t.rate) / fpDen) / stepsPerSf - sf)).map (fun j =>
    let k := cdiv (((sf + 1 + j) * stepsPerSf - t.fp) * fpDen - t.fpAcc) (fpInc t.rate)
    ⟨0, 0, 0, fpFrPh (t.fp + (t.fpAcc + k * fpInc t.rate) / fpDen), w32 (sf + 1 + j), secondsWord (t.devTime + k * t.addend)⟩)

/-- CPORT_ALERT_N driven low; what falls after the last packet written follows an early READ_STATUS (R46). -/
def State.alert (s : State) : State := { s with gh := { s.gh with alert := true, raised := true } }

/-- The severity of a log event (table of log events; R553). -/
def sevOf (ev : Nat) : Nat :=
  if ev = 0x01 ∨ ev = 0x03 ∨ ev = 0x05 then 1
  else if ev ∈ [0x02, 0x04, 0x14, 0x17, 0x20, 0x21, 0x25, 0x36, 0x37, 0x51, 0x70] then 2
  else if ev ∈ [0x06, 0x10, 0x11, 0x12, 0x13] then 3
  else if ev ∈ [0x23, 0x30, 0x31, 0x32, 0x35, 0x38, 0x41, 0x4A, 0x74] then 4
  else if ev ∈ [0x48, 0x49, 0x50, 0x72] then 5
  else 0

/-- The next number in the log's numbering (R502). -/
def nextSeq (n : Nat) : Nat := if 2 ^ 32 - 1 ≤ n then 1 else n + 1

/-- The entries of one clock in ascending block ID: a new one stands after those of its block and below (R502). -/
def putByBlock (e : LogEntry) (es : List LogEntry) : List LogEntry :=
  let blk := fun (x : LogEntry) => (x.words.getD 0 0).toNat % 2 ^ 16
  es.filter (fun x => decide (blk x ≤ blk e)) ++ e :: es.filter (fun x => decide (blk e < blk x))

/-- Entries numbered from n on. -/
def numbered : Nat → List LogEntry → List LogEntry
  | _, [] => []
  | n, e :: es => { seq := n, words := e.words.set 1 (w32 n) } :: numbered (nextSeq n) es

/-- Store an entry, or drop it (R502, R504). -/
def State.logStore (s : State) (ev blk : Nat) (d0 : Word) (reason : Byte) (d1 : Nat) : State :=
  let sev := sevOf ev
  let free := 1024 - s.log.entries.length
  if free = 0 ∨ (sev = 1 ∧ free ≤ 32) then
    State.setRb { s with log := { s.log with lost := min 0xFFFF (s.log.lost + 1) } } 0xD00000 30 true
  else
    let seq := nextSeq s.log.newest
    let old := s.log.entries.length - s.tick.logged
    let first := match s.log.entries.drop old with | e :: _ => e.seq | [] => seq
    let tf := timeForm s.tb.devTime
    let ws : List Word := [
      flag 31 true ||| at_ 28 sev ||| at_ 16 ev ||| w32 blk, w32 seq,
      fpSf s.tb.fp, fpFrPh s.tb.fp,
      BitVec.ofNat 32 (tf.toNat / 2 ^ 48), BitVec.ofNat 32 (tf.toNat / 2 ^ 16 % 2 ^ 32),
      d0, at_ 24 reason.toNat ||| w32 (d1 % 2 ^ 24)]
    let s1 := State.setRb { s with
        log := { s.log with
          entries := s.log.entries.take old ++
            numbered first (putByBlock { seq := seq, words := ws } (s.log.entries.drop old))
          newest := seq }
        tick := { s.tick with logged := s.tick.logged + 1 } } 0x18 21 true
    let s2 := s1.alert
    if 2 ≤ sev then s2.traceStop 3 else s2

/-- An event of a block, with the suppression of corrected errors (R503); a dropped event (R504) is no entry and starts
no suppression. -/
def State.logEvent (s : State) (ev blk : Nat) (d0 : Word) (reason : Byte) (d1 : Nat) : State :=
  if ev = 0x01 ∨ ev = 0x03 then
    let u := Table.get (fun _ => {}) s.log.suppress blk
    if u.active ∧ s.now < u.startedAt + 10 ^ 12 then
      { s with log := { s.log with
          suppress := Table.set (fun _ => {}) s.log.suppress blk { u with missed := u.missed + 1 } } }
    else if 1024 - s.log.entries.length ≤ 32 then s.logStore ev blk d0 reason 0
    else
      let s1 := { s with log := { s.log with
          suppress := Table.set (fun _ => {}) s.log.suppress blk { startedAt := s.now, active := true, missed := 0 } } }
      s1.logStore ev blk d0 reason (min u.missed 0xFFFFFF)
  else s.logStore ev blk d0 reason d1

/-! ### Repairs of configuration frames (R309, R492, R495) -/

/-- TC_SCRUB of terrace t. -/
def aScrub (t : Nat) : Nat := aTerr t + 0x10

/-- The location of a frame's bit as the log gives it. -/
def frameLoc (shadowPlane : Bool) (bay frame word bitNo : Nat) : Word :=
  flag 31 shadowPlane ||| at_ 16 bay ||| at_ 12 frame ||| at_ 6 word ||| w32 bitNo

/-- The holds that began within the last microsecond. -/
def Terrace.heldSince (x : Terrace) (now : Nat) : List (Nat × Nat) := x.holdStarts.filter (fun h => decide (now < h.2 + 1000000))

/-- The switch owns the terrace and its Cairn is committed: no repair starts (R309, R495). -/
def State.switchNear (s : State) (t : Nat) : Bool :=
  s.ovl.bound && !s.ovl.auto && (s.cairn s.ovl.cairn).committed &&
  (match s.ovl.image with | some i => i.ownsTerr t | none => false)

/-- The repair of a frame may start: in the plane in force at most one bay of the terrace is held, and holds of one bay begin 1 µs
apart; none starts near a switch, nor in a plane that is being staged (R492, R495). -/
def State.repairMay (s : State) (t : Nat) (loc : Word) : Bool :=
  let x := s.terr t
  !s.switchNear t &&
  (if bit loc 31 = x.plane then
    !x.anyHeld s.now && (x.heldSince s.now).all (fun h => decide (h.1 ≠ fld loc 24 16))
  else !x.stagingShadow)

/-- A frame is repaired: one of the plane in force under a hold of its bay, of at most 40 ns. It counts and is logged (R492). -/
def State.repairNow (s : State) (t : Nat) (loc : Word) : State :=
  let bay := fld loc 24 16
  let s1 := if bit loc 31 = (s.terr t).plane then
      (s.userHold t bay).modTerr t (fun y => { y with
        heldBay := some bay, heldUntil := s.now + 40000, lastBay := bay, holdStarts := y.heldSince s.now ++ [(bay, s.now)] })
    else s
  (s1.addCnt16 (aScrub t)).logEvent 0x03 (terraceId t) loc 0 0

/-- A correctable frame is repaired, or waits until it may be; a frame waits once. -/
def State.repair (s : State) (t : Nat) (loc : Word) : State :=
  if s.repairMay t loc then s.repairNow t loc
  else s.modTerr t (fun y => { y with
    repairs := if y.repairs.any (fun l => decide (l.toNat / 4096 = loc.toNat / 4096)) then y.repairs else y.repairs ++ [loc] })

/-- The repairs that wait and may start now do. -/
def State.repairsStart (s : State) : State :=
  s.terraces.foldl (fun (s : State) e =>
    e.2.repairs.foldl (fun (s : State) loc =>
      if s.repairMay e.1 loc then (s.modTerr e.1 (fun y => { y with repairs := y.repairs.erase loc })).repairNow e.1 loc else s) s) s

/-- A terrace's driver on a Spine is turned off by a contention (R288). -/
def State.spineOff (s : State) (t n : Nat) : State :=
  ((s.setRb (aTerr t + 0x20 + 4 * (n / 32)) (n % 32) true).addCnt (aTerr t + 0x30) 1).logEvent 0x37 (terraceId t) (w32 n) 0 0

/-- The drivers that contentions of the time step have turned off (R288). -/
def State.spinesOff (s : State) : State :=
  let s1 := s.tick.clash.foldl (fun (s : State) e => s.spineOff e.1 e.2) s
  s1.setTick { s1.tick with clash := [] }

/-- A channel or page retirement is counted (DEV_GSTAT.RETIRE, DEV_RETIRE_CNT). -/
def State.countRetire (s : State) : State := (s.addCnt 0x2C 1).setRb 0x18 20 true

/-! ### Integrity stop and time -/

/-- Addresses of the stop record. -/
def aStop : Nat := 0x700200

/-- INTEGRITY STOP is in force (R435, R344, R136, R464, R472): lanes off, engines stopped, armed Cairns discarded, keys gone, DRAM
in self-refresh, slots and loads empty, the mode STOP, the alert and the log entry. -/
def State.stopNow (s : State) : State :=
  let s1 : State := { s with
    lanes := Table.mapAll (fun _ => {}) s.lanes (fun _ l => { l with st := .off, synth := false, loopKind := 0 })
    engines := Table.mapAll (fun _ => {}) s.engines (fun _ e => { e with st := .stopped })
    cairns := Table.keep s.cairns (fun _ c => c.armed.isEmpty)
    keys := []
    dram := Table.mapAll (fun _ => {}) s.dram (fun _ d => { d with selfRef := d.powered })
    terraces := Table.mapAll (fun _ => {}) s.terraces (fun _ t => { t with shadowOk := false, stagingShadow := false }),
    boot := { s.boot with slots := [], load := none }
    ovl := { s.ovl with
      id := 0, busy := false, ready := false, image := none, bound := false, auto := false, cairn := 0,
      modeEnter := false },
    mode := .stop
    stopPend := false }
  s1.alert.logEvent 0x50 (s.rf aStop 15 0) (s.reg aStop) 0 0

/-- `n` timebase clocks pass: elapsed time, both time values, the device watchdog (R64) and the engines' watchdogs. -/
def State.pass (n : Nat) (s : State) : State :=
  let ps := 2000 * n
  let s1 := { s with now := s.now + ps, tick := s.tick.after n }
  if s.pwr.held then { s1 with keepers := if n = 0 then s.keepers else s1.keepersNow }
  else
    let on := s.tbOn
    let ran := if s.mode = .stop then s else s.fabricRun ps
    let s2 : State := { s1 with
      fab := ran.fab
      terraces := ran.scrubbed ps
      pins := ran.pins
      pads := ran.pads
      keepers := ran.keepers
      cap := ran.cap
      tick := if n = 0 then s.tick else { clash := ran.tick.clash }
      tb := if on then s.tb.run n else s.tb
      trace := if on && s.trace.run then { s.trace with made := s.trace.made ++ s.tb.syncs n } else s.trace
      gh := { s.gh with wdog := s.gh.wdog - ps }
      engines := if s.mode = .stop then s.engines
        else Table.mapAll (fun _ => {}) s.engines (fun k e =>
          (if e.st = .run ∧ n ≠ 0 then e.stall k s.now ps else e).elapse ps (if on then n * s.tb.addend else 0)) }
    { s2 with keepers := if n = 0 then s.keepers else s2.keepersNow }

/-- A clock ends: the Cairns that have fired or missed in it free their slots or go on (R132), a pending INTEGRITY STOP comes into
force (R435). -/
def State.clockEnds (s : State) : State :=
  let s1 := s.cairnsEnd
  if s1.stopPend ∧ !s1.pwr.held then s1.stopNow else s1

/-- What the end of a time step brings: the drivers that contentions have turned off are flagged (R288), repairs that have waited
start (R495; DESIGN CHOICE, log entry 56). -/
def State.stepEnds (s : State) : State := if s.live then s.spinesOff.repairsStart else s.spinesOff

/-- n timebase clocks pass: the present clock ends, time passes, and the step ends. -/
def State.advance (n : Nat) (s : State) : State := if n = 0 then s.pass 0 else (s.clockEnds.pass n).stepEnds

/-- The row of an event: time passes, and the event acts when the device is live. -/
def event (dt : Nat) (s : State) (f : State → State) : Out :=
  let s' := s.advance dt
  .next (if s'.live then f s' else s')

/-- An event of a supply, which acts in every mode while the device is not held in reset, and else by `held` (R321). -/
def supplyEvent (ok : Bool) (dt : Nat) (s : State) (held f : State → State) : Out :=
  if ok then .next (let s' := s.advance dt; if s'.pwr.held then held s' else f s') else .fault .noSuchUnit

/-- An event at a unit whose number must exist. -/
def unitEvent (ok : Bool) (dt : Nat) (s : State) (f : State → State) : Out :=
  if ok then event dt s f else .fault .noSuchUnit

/-! ### Replies of the Gatehouse -/

/-- The final reply of the running command, and its place in the replay cache (R48, R53, R56). -/
def State.finish (s : State) (status reason : Byte) (data : List Word) : State :=
  match s.gh.running with
  | none => s
  | some r =>
    let held : Held := {
      opcode := BitVec.ofNat 8 r.op, status := status, reason := reason, tag := r.hdr.tag,
      target := r.hdr.target, data := if status = 0x00 ∨ status = 0x03 ∨ status = 0x04 then data else [] }
    let omit_ := decide (status = 0x02) && (decide (reason = 0x02) || decide (reason = 0x04))
    let cache := if omit_ then s.gh.cache
      else (s.gh.cache ++ [({ tag := r.hdr.tag, crc := r.crc, reply := held } : CacheEntry)]).drop (s.gh.cache.length + 1 - 16)
    { s with gh := { s.gh with
        running := none, held := held, cache := cache,
        alert := s.gh.alert || decide (r.hdr.flags &&& 1 ≠ 0),
        raised := s.gh.raised || decide (r.hdr.flags &&& 1 ≠ 0) } }

/-- The final reply of a command that has acted and waited for an event. -/
def State.finishWait (s : State) (op : Nat → Bool) (status reason : Byte) (data : List Word) : State :=
  match s.gh.running with
  | some r => if r.begun && op r.op then s.finish status reason data else s
  | none => s

/-- The reset reply (R52). -/
def resetReply : Held := {}

/-- The effect of RESET type 0 (R69). The level's own consequences under R514 are the caller's. -/
def State.portReset (s : State) : State :=
  { s with gh := { s.gh with
      running := none, held := resetReply, cache := [], badFrames := 0, auth := 0, challenge := none } }

/-! ### Integrity stop -/

/-- INTEGRITY STOP from its detecting clock on (R434-R436): STOP_PEND, the record, the running command ended; it comes into force
when time passes. Of the sources of one clock the lowest block ID is recorded, with MORE. -/
def State.integrityStop (s : State) (source slot blk : Nat) (addr : Word) : State :=
  let rec_ := flag 31 true ||| at_ 24 source ||| at_ 16 slot ||| w32 blk
  if s.mode = .stop then s
  else if s.stopPend then
    (if blk < s.rf aStop 15 0 then (s.setReg aStop rec_).setReg (aStop + 4) addr else s).setRb aStop 30 true
  else
    let s1 := (((s.setReg aStop rec_).setReg (aStop + 4) addr).setReg (aStop + 8) (fpSf s.tb.fp)).setReg (aStop + 12)
      (fpFrPh s.tb.fp)
    State.finish { s1 with stopPend := true } 0x06 0x40 []

/-- A key slot is read, to encrypt or decrypt: an error in it is corrected, or stops the device (R434, R484, R486). -/
def State.keyMeet (s : State) (k : Nat) : State :=
  match s.weakAt (.keySlot k) with
  | .corrected => s.logEvent 0x01 0x0006 (w32 k) 0 0
  | .uncorrectable => (s.mend (.keySlot k)).integrityStop 4 k 0x0006 0
  | _ => s

/-- The entry of Cairn k reads uncorrectable: the Cairn is freed and disarmed, without an event record (R484). -/
def State.cairnLost (s : State) (k : Nat) : State := (s.logEvent 0x02 0x0004 (w32 k) 0 0).cairnDrop k

/-- The entry of Cairn k is read (R484, R486). -/
def State.cairnMeet (s : State) (k : Nat) : State :=
  match s.entryUpset (cairnWords k) with
  | .corrected => s.logEvent 0x01 0x0004 (w32 k) 0 0
  | .uncorrectable => s.cairnLost k
  | _ => s

/-- The entry of Cairn k reads uncorrectable. -/
def State.cairnBad (s : State) (k : Nat) : Bool := decide (s.entryUpset (cairnWords k) = .uncorrectable)

/-! ### Device reset -/

/-- The state after RESET_N, RESET type 1 or a power cycle of the device (R443, R78, R52, R60, R438): everything at its
Reset value but the stop record; what lies outside the device (supplies, the boundary-scan port) stays. -/
def State.deviceReset (s : State) (bootsel : Nat) : State :=
  let keep := [aStop, aStop + 4, aStop + 8, aStop + 12]
  let s1 : State := {
    pending := s.pending
    now := s.now
    freeCtr := s.freeCtr
    regs := keep.foldl (fun t a => Table.set resetWord t a (s.reg a)) []
    banks := Table.mapAll (fun _ => {}) s.banks (fun _ b => { ({} : Bank) with meas := b.meas, rose := b.rose })
    keepers := s.keepers
    jtag := s.jtag
    boot := { bootsel := bootsel % 4 }
    dsp := { restartedAt := s.now }
    pwr := { t0 := s.now } }
  if bootsel % 4 = 3 then s1.logEvent 0x4B 0x000C (w32 3) 0 0 else s1

/-! ### Accessors -/

/-- The Ridgeway port of a terrace, an engine's pavilion (R256, R257). -/
def terracePort (t : Nat) : Nat :=
  let n := t % 32
  t / 32 * 0x80 + n / 2 * 8 + n % 2

def pavilionPort (p : Nat) : Nat := p / 2 * 0x80 + (if p % 2 = 0 then 5 else 9) * 8 + 6

/-- The initiator port of an accessor. -/
def Accessor.port : Accessor → Nat
  | .host => 0x200
  | .engine e => pavilionPort (e / 8)
  | .fabric t => terracePort t
  | .belvedere => 0x205

/-- The accessor may wait for a reply of the Gatehouse (R93): only the host is answered with reasons. -/
def Accessor.isHost : Accessor → Bool
  | .host => true
  | _ => false

/-- The ranges engines and fabric logic may reach (R30). -/
def openTo (p : Place) (write : Bool) : Bool :=
  match p with
  | .channel _ | .quad _ | .lane _ | .txPreset _ | .cistern _ | .orchard _ | .bankGroup _ | .dram _ | .dispatcher
  | .pavilion _ | .monitor | .window _ | .scratchpad _ => true
  | .cairns | .timebase => !write
  | _ => false

/-- The reply words on the wire: status, reason, tag; length and target; data; CRC is added by the port (R48). -/
def Held.words (h : Held) : List Word :=
  [at_ 24 h.status.toNat ||| at_ 16 h.reason.toNat ||| w32 h.tag.toNat,
   at_ 16 h.data.length ||| w32 h.target.toNat] ++ h.data

end Sys2Proof.Machine
end

