-- ==== Sys2Proof/Machine/Ridgeway.lean ====
section
/-!
DEFINITION. The initiators and targets of the Ridgeway (R255-R275): ports, routing of addresses, sequence series,
unacknowledged packets, stored responses and statistics.
-/
namespace Sys2Proof.Machine

open Sys2Proof

/-- The router port of terrace, quad and DRAM channel units by local number (R256). -/
def quadPort (q : Nat) : Nat :=
  let k := q % 9
  let m := if k ≤ 4 then k else if k ≤ 6 then k + 2 else if k = 7 then 11 else 15
  q / 9 * 0x80 + m * 8 + (if k = 8 then 3 else 2)

def dramPort (d : Nat) : Nat :=
  let k := d % 4
  d / 4 * 0x80 + (if k = 3 then 15 else k + 12) * 8 + 2

/-- The port of an Orchard bank group, side A; group 0 also serves the ridge registers. -/
def groupPort (n : Nat) : Nat :=
  let k := n % 4
  n / 4 * 0x80 + (if k = 0 then 5 else if k = 1 then 6 else if k = 2 then 9 else 10) * 8 + 2

/-- The port that serves a place (R256, R257). -/
def portOf : Place → Nat
  | .device => 0x208
  | .gatehouse => 0x200
  | .flash => 0x20A
  | .clocks | .plls => 0x209
  | .timebase | .cairns => 0x203
  | .channel n => quadPort (n / 4)
  | .quad q => quadPort q
  | .lane l | .txPreset l => quadPort (l / 4)
  | .cistern i => if i < 144 then quadPort (i / 4) else terracePort (i - 144)
  | .orchard r => groupPort (4 * r)
  | .bankGroup n => groupPort n
  | .hub => 0x20B
  | .gateway r => r * 0x80 + 5 * 8 + 4
  | .router w => w / 16 * 0x80 + w % 16 * 8 + 7
  | .dram d => dramPort d
  | .keys => 0x206
  | .engine e | .scratchpad e => pavilionPort (e / 8)
  | .dispatcher => 0x201
  | .pavilion p => pavilionPort p
  | .reliability => 0x204
  | .bist => 0x207
  | .belvedere => 0x205
  | .monitor => 0x202
  | .bank _ => 0x20C
  | .window t | .terrace t => terracePort t

/-- The target port of a parameter-space address. -/
def portOfAddr (a : Nat) : Nat := match placeOf a with | some (p, _) => portOf p | none => 0x20B

/-- The router a ridge port stands at; none in the hub. -/
def portRouter (p : Nat) : Option Nat := if p < 0x200 then some (p / 0x80 * 16 + p / 8 % 16) else none

/-- The gateway range a port's ridge keeps its counters in: the ridge gateway's or the hub's. -/
def portBase (p : Nat) : Nat := if p < 0x200 then aGw (p / 0x80) else 0x500000

/-- The domain behind a ridge port (R256, R33): a terrace, a quad, a pavilion, else its ridge; 0 in the hub. -/
def portDomain (p : Nat) : Nat :=
  if 0x200 ≤ p then 0
  else
    match (List.range 128).find? (fun t => terracePort t = p) with
    | some t => terraceId t
    | none =>
      match (List.range 36).find? (fun q => quadPort q = p) with
      | some q => quadId q
      | none =>
        match (List.range 8).find? (fun v => pavilionPort v = p) with
        | some v => pavilionId v
        | none => ridgeId (p / 0x80)

/-- The accessor a source port stands for: an engine of a pavilion port, a terrace, else Belvedere or the host. -/
def accessorOf (p : Nat) : Accessor :=
  match (List.range 128).find? (fun t => terracePort t = p) with
  | some t => .fabric t
  | none =>
    match (List.range 8).find? (fun v => pavilionPort v = p) with
    | some v => .engine (8 * v)
    | none => if p = 0x205 then .belvedere else .host

/-- The key of an initiator and target pair. -/
def series (i t : Nat) : Nat := i * 1024 + t

/-! ### Paths (R258) and the header flit (R259) -/

/-- The routers of a ridge a packet passes from router m to router n: along its row, then along its column. -/
def meshPath (m n : Nat) : List Nat :=
  let up := fun (a b : Nat) => (List.range (b - a)).map (fun k => a + k + 1)
  let down := fun (a b : Nat) => (List.range (a - b)).map (fun k => a - (k + 1))
  let cols := up (m % 4) (n % 4) ++ down (m % 4) (n % 4)
  let rows := up (m / 4) (n / 4) ++ down (m / 4) (n / 4)
  m :: (cols.map (fun c => m / 4 * 4 + c) ++ rows.map (fun r => r * 4 + n % 4))

/-- The interior router nearest to router m: 5, 6, 9 or 10. -/
def innerRouter (m : Nat) : Nat := max 1 (min 2 (m / 4)) * 4 + max 1 (min 2 (m % 4))

/-- The gateway port a packet of a source port enters by: bit 0 of its ID chooses of the two of the interior router. -/
def gatewayPort (src : Nat) : Nat := src / 0x80 * 0x80 + innerRouter (src / 8 % 16) * 8 + 4 + src % 2

/-- One of the eight gateway ports of a ridge, where the fence of a ridge domain stands (R256, R272). -/
def isGatewayPort (p : Nat) : Bool :=
  decide (p < 0x200) && decide (innerRouter (p / 8 % 16) = p / 8 % 16) && (decide (p % 8 = 4) || decide (p % 8 = 5))

/-- The routers, numbered through all ridges, on the one path of a packet between two ports. -/
def routePath (src dst : Nat) : List Nat :=
  let from_ := src / 8 % 16
  let to_ := dst / 8 % 16
  let here := fun (l : List Nat) => l.map (fun m => 16 * (src / 0x80) + m)
  let there := fun (l : List Nat) => l.map (fun m => 16 * (dst / 0x80) + m)
  if src < 0x200 ∧ dst < 0x200 ∧ src / 0x80 = dst / 0x80 then here (meshPath from_ to_)
  else (if src < 0x200 then here (meshPath from_ (innerRouter from_)) else []) ++
    (if dst < 0x200 then there (meshPath (innerRouter to_) to_) else [])

/-- KIND as the header codes it. -/
def kindCode : RwKind → Nat
  | .read => 0 | .write => 1 | .posted => 2 | .modify => 3 | .rdata => 8 | .done => 9 | .err => 10 | .pack => 11
  | .holding => 12 | .reserved k => k

/-- The inputs on that path: of each router, the port or the mesh link a packet enters by, and the gateway port it leaves its
ridge by, which checks flits too (R263). Mesh inputs are numbered 8 (from the west), 9 (east), 10 (north) and 11 (south) (DESIGN
CHOICE, log entry 24). -/
def pathInputs (src dst : Nat) : List (Nat × Nat) :=
  let steps := fun (r first : Nat) (l : List Nat) =>
    (l.zip ((16 : Nat) :: l)).map (fun x =>
      (16 * r + x.1,
        if x.2 = 16 then first
        else if x.1 = x.2 + 1 then 8 else if x.2 = x.1 + 1 then 9 else if x.1 = x.2 + 4 then 10 else 11))
  let m := src / 8 % 16
  let n := dst / 8 % 16
  if src < 0x200 ∧ dst < 0x200 ∧ src / 0x80 = dst / 0x80 then steps (src / 0x80) (src % 8) (meshPath m n)
  else (if src < 0x200 then
      steps (src / 0x80) (src % 8) (meshPath m (innerRouter m)) ++ [(16 * (src / 0x80) + innerRouter m, 4 + src % 2)] else []) ++
    (if dst < 0x200 then steps (dst / 0x80) (4 + src % 2) (meshPath (innerRouter n) n) else [])

/-- The word of a payload flit, or of the header's part of the payload, at a place; 0 past the end. -/
def payloadWords (p : RwPkt) : List Word := if p.kind = .modify then p.mask :: p.payload else p.payload

/-- The eight words of the header flit from [255:224] down: the header, then the first 16 bytes of the payload. -/
def headerWords (p : RwPkt) : List Word :=
  [at_ 30 p.pri ||| at_ 26 (kindCode p.kind) ||| at_ 16 p.dst ||| at_ 6 p.src ||| w32 p.flits,
   at_ 16 p.seq.toNat ||| at_ 8 p.reason.toNat ||| at_ 2 p.key, p.addr, p.data] ++
  (List.range 4).map (fun k => (payloadWords p).getD k 0)

/-- The eight words of payload flit k, counted from 0. -/
def flitWords (p : RwPkt) (k : Nat) : List Word := (List.range 8).map (fun j => (payloadWords p).getD (4 + 8 * k + j) 0)

/-- Response packets; every other kind is a request (R259, R260). -/
def isResponseKind : RwKind → Bool
  | .rdata | .done | .err | .pack | .holding => true
  | _ => false

/-- The priority a port sends at (R262): the Gatehouse 3, channels and Cisterns 2, the pager's fetches 2 and spills 0; other
ports at the priority presented. -/
def sendPri (p : RwPkt) (cistern : Bool) : Nat :=
  if p.src = 0x200 then 3
  else if cistern ∧ (List.range 128).any (fun t => decide (terracePort t = p.src)) then 2
  else if (List.range 36).any (fun q => decide (quadPort q = p.src)) then 2
  else if (List.range 16).any (fun n => decide (groupPort n = p.src ∨ groupPort n + 1 = p.src)) then
    (if p.kind = .read then 2 else 0)
  else p.pri % 4

/-- The ridge of a port; none in the hub. -/
def portRidge (p : Nat) : Option Nat := if p < 0x200 then some (p / 0x80) else none

/-- Inter-ridge link n ends at ridge r (R22). -/
def linkEnds (n r : Nat) : Bool :=
  decide ((n, r) ∈ ([(0, 0), (0, 1), (1, 0), (1, 2), (2, 0), (2, 3), (3, 1), (3, 2), (4, 1), (4, 3), (5, 2), (5, 3)] : List (Nat × Nat)))

/-- The ridge of a domain; none of the device's. -/
def domainRidge (d : Nat) : Option Nat :=
  if d = 0 then none else if d / 0x400 = 1 then some (d % 0x400) else some (parentOf d % 0x400)

/-- The link a packet between two ports crosses, numbered with the hub links as 6 to 9 (R22). -/
def linkOf (a b : Nat) : Option Nat :=
  match portRidge a, portRidge b with
  | some x, some y => if x = y then none else (List.range 6).find? (fun n => linkEnds n x && linkEnds n y)
  | some x, none | none, some x => some (6 + x)
  | none, none => none

namespace State

def stats (s : State) (p : Nat) : PortStats := Table.get (fun _ => {}) s.rw.stats p
/-- Events of a port are counted; those of the present clock survive a CLR in it (R275). -/
def modStats (s : State) (p : Nat) (f : PortStats → PortStats) : State :=
  { s with
    rw := { s.rw with stats := Table.modify (fun _ => {}) s.rw.stats p f }
    tick := { s.tick with stats := Table.modify (fun _ => {}) s.tick.stats p f } }

/-- RW_STAT_CTRL.CLR: the counters of a port start again, with the events of the clearing clock. -/
def clearStats (s : State) (p : Nat) : State :=
  { s with rw := { s.rw with
      stats := Table.set (fun _ => {}) s.rw.stats p (Table.get (fun _ => {}) s.tick.stats p) } }

def target (s : State) (i t : Nat) : TargetSeries := Table.get (fun _ => {}) s.rw.targets (series i t)
def setTarget (s : State) (i t : Nat) (v : TargetSeries) : State :=
  { s with rw := { s.rw with targets := Table.set (fun _ => {}) s.rw.targets (series i t) v } }

def router (s : State) (w : Nat) : Router := Table.get (fun _ => {}) s.rw.routers w
def setRouter (s : State) (w : Nat) (v : Router) : State :=
  { s with rw := { s.rw with routers := Table.set (fun _ => {}) s.rw.routers w v } }

/-- The local ports of ridge r are held while a route table switch is under way (R270). -/
def portsHeld (s : State) (r : Nat) : Bool := (List.range 16).any (fun m => (s.router (16 * r + m)).switching)

/-- The router of a port is isolated: its unit can neither send nor receive (R271). -/
def portDead (s : State) (p : Nat) : Bool := match portRouter p with | some w => (s.router w).dead | none => false

/-- Why traffic of a port does not reach a domain: it is off 0x07, or a fence before it is closed 0x1C (R272). -/
def reachFrom (s : State) (port d : Nat) : Byte :=
  if d = 0 then 0
  else if !s.domainOn d then 0x07
  else if s.fenceStops d (decide (portRidge port ≠ domainRidge d)) then 0x1C else 0

/-- The network takes packets of a port toward another: no switch of route tables holds it, its ridge's routers are clocked, its
router is not isolated, and no fence closed to it keeps the port's domain from new requests (R270, R271, R272, R336). -/
def portTakes (s : State) (p dst : Nat) : Bool :=
  (match portRidge p with | some r => s.gateOpen (ridgeId r) | none => true) && !s.portsHeld (p / 0x80) && !s.portDead p && !s.fenceStops (portDomain p) (decide (portRidge p ≠ portRidge dst))

/-! ### Paths in force (R36, R258, R270, R271) -/

/-- A ridge cut off from the device hub and the other ridges: its gateway, its hub link or one of its inter-ridge links is
lost (R36, R271; DEDUCED for a link, which ends at two ridges, log entry 24). -/
def ridgeCut (s : State) (r : Nat) : Bool :=
  decide (r ∈ s.rw.cutGateways) || decide (r ∈ s.rw.cutHub) || s.rw.cutLinks.any (fun n => linkEnds n r)

/-- The live routers of ridge r that have a link to one of a list, and the list. -/
def meshGrow (s : State) (r : Nat) (l : List Nat) : List Nat :=
  (List.range 16).filter (fun m => decide (m ∈ l) || (!(s.router (16 * r + m)).dead && l.any (fun n =>
    (decide (m / 4 = n / 4) && (decide (m + 1 = n) || decide (n + 1 = m))) || decide (m + 4 = n) || decide (n + 4 = m))))

/-- The routers of ridge r that live links join to router m. -/
def meshJoined (s : State) (r m : Nat) : List Nat := (List.range 15).foldl (fun l _ => s.meshGrow r l) [m]

/-- A table that avoids the dead routers has a path between two ports whose own routers live. -/
def routeExists (s : State) (a b : Nat) : Bool :=
  let inner := fun (p : Nat) => (s.meshJoined (p / 0x80) (p / 8 % 16)).any (fun m => decide (innerRouter m = m))
  if a < 0x200 ∧ b < 0x200 ∧ a / 0x80 = b / 0x80 then decide (b / 8 % 16 ∈ s.meshJoined (a / 0x80) (a / 8 % 16))
  else (decide (0x200 ≤ a) || inner a) && (decide (0x200 ≤ b) || inner b)

/-- Routers on the path of R258 are isolated, and it cannot be gone round: one of them is at an end, the tables that avoid
them are not loaded yet, or the mesh has no other path. -/
def routeCut (s : State) (a b : Nat) : Bool :=
  let gone := (routePath a b).filter (fun w => (s.router w).dead)
  if gone.isEmpty then false
  else s.portDead a || s.portDead b || gone.any (fun w => (s.router w).switching) || !s.routeExists a b

/-- The path between two ports is cut. -/
def pathCut (s : State) (a b : Nat) : Bool :=
  s.routeCut a b ||
    (match portRidge a, portRidge b with
      | none, none => false
      | some x, some y => decide (x ≠ y) && (s.ridgeCut x || s.ridgeCut y)
      | some x, none | none, some x => s.ridgeCut x)

/-- A packet enters router w by an input: on the path of R258 while no router of it is dead, else anywhere in its ridges. -/
def onPath (s : State) (p : RwPkt) (w input : Nat) : Bool :=
  if (routePath p.src p.dst).any (fun x => (s.router x).dead) then
    decide (portRidge p.src = some (w / 16)) || decide (portRidge p.dst = some (w / 16))
  else decide ((w, input) ∈ pathInputs p.src p.dst)

/-- The oldest packet on the path it takes: packets of one pair, priority and class keep their order (R258, R261). -/
def airFirst (s : State) (p : RwPkt) : Bool :=
  decide (s.rw.air.find? (fun x => decide (x.src = p.src ∧ x.dst = p.dst ∧ x.pri = p.pri) &&
    decide (isResponseKind x.kind = isResponseKind p.kind)) = some p)

/-- A packet leaves the network. -/
def land (s : State) (p : RwPkt) : State :=
  { s with rw := { s.rw with air := s.rw.air.erase p, turned := s.rw.turned.erase p } }

/-- The header of a packet passes a port: the trace takes it (R539). -/
def portSees (s : State) (port : Nat) (p : RwPkt) : State :=
  s.traceMake 4 port 0x30 ((headerWords p).getD 0 0) ((headerWords p).getD 2 0)

/-- A packet enters the network. -/
def enters (s : State) (p : RwPkt) : State := { s with rw := { s.rw with air := s.rw.air ++ [p] } }

/-- A packet enters the network at its port. -/
def fly (s : State) (p : RwPkt) : State := (s.enters p).portSees p.src p

/-- The packets an initiator port holds unacknowledged (R265). -/
def unacked (s : State) (port : Nat) : Nat := (s.rw.outstanding.filter (fun o => decide (o.pkt.src = port))).length

/-- Send a request: the next number of its series, kept until its response arrives (R265, R275). -/
def rwSend (s : State) (use : RwUse) (eng : Option Nat) (p : RwPkt) : State :=
  let k := series p.src p.dst
  let q := { p with seq := Table.get (fun _ => 0) s.rw.nextSeq k }
  let s1 := { s with rw := { s.rw with
      nextSeq := Table.set (fun _ => 0) s.rw.nextSeq k (q.seq + 1),
      outstanding := s.rw.outstanding ++
        [({ pkt := q, use := use, eng := eng, sentAt := s.now, firstAt := s.now } : Outstanding)],
      air := s.rw.air ++ [q] } }
  (s1.portSees p.src q).modStats p.src (fun st => { st with
    requests := min (2 ^ 32 - 1) (st.requests + 1), flits := min (2 ^ 32 - 1) (st.flits + 1 + p.flits) })

/-- A response leaves the statistics and the unacknowledged packets of its initiator (R265, R275). -/
def rwRetire (s : State) (o : Outstanding) (isErr : Bool) : State :=
  let posted := decide (o.pkt.kind = .posted)
  let lat := (s.now - o.firstAt) / 800
  let s1 := { s with rw := { s.rw with outstanding := s.rw.outstanding.filter (fun x => decide (x ≠ o)) } }
  s1.modStats o.pkt.src (fun st =>
    let st1 := if isErr then { st with errors := min (2 ^ 32 - 1) (st.errors + 1) } else st
    if posted then st1
    else { st1 with
      completed := min (2 ^ 32 - 1) (st1.completed + 1),
      latencySum := min (2 ^ 48 - 1) (st1.latencySum + lat),
      latencyMax := max st1.latencyMax (min 0xFFFF lat) })

/-- The response to a request: sent back at its priority under its SEQ (R259, R261). -/
def answerTo (p : RwPkt) (kind : RwKind) (reason : Byte) (data : Word) (more : List Word) : RwPkt := {
  pri := p.pri, kind := kind, dst := p.src, src := p.dst, seq := p.seq, reason := reason, addr := p.addr, data := data,
  flits := if kind = .rdata ∧ p.kind = .read then p.reason.toNat % 64 else 0, payload := more }

/-- A response is stored among the last 64 of its initiator (R266). -/
def rwStore (s : State) (p r : RwPkt) : State :=
  let t := s.target p.src p.dst
  s.setTarget p.src p.dst { t with stored := (t.stored ++ [r]).drop (t.stored.length + 1 - 64) }

/-- The response a target sends and stores (R265, R266). -/
def rwAnswerWith (s : State) (p r : RwPkt) : State := (s.rwStore p r).fly r

def rwAnswer (s : State) (p : RwPkt) (kind : RwKind) (reason : Byte) (data : Word) : State :=
  s.rwAnswerWith p (answerTo p kind reason data [])

/-- The target takes the request out of the series: E advances (R266). -/
def rwAdvance (s : State) (p : RwPkt) : State :=
  let t := s.target p.src p.dst
  s.setTarget p.src p.dst { t with expect := t.expect + 1 }

/-- The response a request gets, by its kind, when it was carried out or refused: READ and MODIFY RDATA, WRITE DONE, POSTED
PACK; refused ERR, or PACK with the reason (R259, R260). -/
def replyTo (p : RwPkt) (reason : Byte) (data : Word) (more : List Word) : RwPkt :=
  match p.kind with
  | .posted => answerTo p .pack reason 0 []
  | .write => if reason = 0 then answerTo p .done 0 0 [] else answerTo p .err reason 0 []
  | _ => if reason = 0 then answerTo p .rdata 0 data more else answerTo p .err reason 0 []

/-- A posted request's refusal is logged (R260). -/
def packLog (s : State) (p : RwPkt) (reason : Byte) : State :=
  if p.kind = .posted ∧ reason ≠ 0 then s.logEvent 0x22 (portDomain p.dst) p.addr reason p.src else s

/-- The target answers a request. -/
def rwReply (s : State) (p : RwPkt) (reason : Byte) (data : Word) : State :=
  (s.rwAnswerWith p (replyTo p reason data [])).packLog p reason

/-- A request of a hub block that the model runs itself (a PARAM_ command of the Gatehouse at priority 3, a peek of Belvedere)
and its answer: the series, and the statistics of its port (R262, R265, R275). -/
def hubSent (s : State) (port dst : Nat) : State :=
  let k := series port dst
  let t := s.target port dst
  let lat := Config.hubLatency port s.now
  (({ s with rw := { s.rw with nextSeq := Table.modify (fun _ => 0) s.rw.nextSeq k (fun n => n + 1) } } : State).setTarget
    port dst { t with expect := t.expect + 1 }).modStats port (fun st => { st with
      requests := min (2 ^ 32 - 1) (st.requests + 1), flits := min (2 ^ 32 - 1) (st.flits + 1),
      completed := min (2 ^ 32 - 1) (st.completed + 1), latencySum := min (2 ^ 48 - 1) (st.latencySum + lat),
      latencyMax := max st.latencyMax (min 0xFFFF lat) })

/-- Its answer was an ERR. -/
def hubErr (s : State) (port : Nat) : State :=
  s.modStats port (fun st => { st with errors := min (2 ^ 32 - 1) (st.errors + 1) })

/-- Drop the sequence state between every initiator and the ports of a domain, with the packets between them (R274). -/
def dropSeries (s : State) (d : Nat) : State :=
  let hit := fun k => decide (portDomain (k / 1024) = d) || decide (portDomain (k % 1024) = d)
  let clear := fun (p : RwPkt) => decide (portDomain p.src ≠ d) && decide (portDomain p.dst ≠ d)
  { s with rw := { s.rw with
      nextSeq := Table.keep s.rw.nextSeq (fun k _ => !hit k),
      targets := Table.keep s.rw.targets (fun k _ => !hit k),
      air := s.rw.air.filter clear,
      turned := s.rw.turned.filter clear,
      waiting := s.rw.waiting.filter (fun p => decide (portDomain p.src ≠ d)),
      outstanding := s.rw.outstanding.filter (fun o => clear o.pkt) } }

end State

end Sys2Proof.Machine
end

