-- ==== Sys2Proof/Machine/Dispatcher.lean ====
section
/-!
DEFINITION. The hardware thread dispatcher (R374-R395): thread and flow fields, ready lists, posts, staging, returns.
-/
namespace Sys2Proof.Machine

open Sys2Proof

namespace State

/-! ### Fields of the thread and flow entries -/

def thEn (s : State) (t : Nat) : Bool := s.rb (aThread t) 31
def thPri (s : State) (t : Nat) : Nat := s.rf (aThread t) 30 26
def thPin (s : State) (t : Nat) : Bool := s.rb (aThread t) 25
def thFlowEn (s : State) (t : Nat) : Bool := s.rb (aThread t) 24
def thPmax (s : State) (t : Nat) : Nat := s.rf (aThread t) 23 16
def thFlow (s : State) (t : Nat) : Nat := s.rf (aThread t) 13 0
def thEntry (s : State) (t : Nat) : Nat := s.rf (aThread t + 4) 17 0
def thMask (s : State) (t p : Nat) : Bool := s.rb (aThread t + 8) p
def thPref (s : State) (t : Nat) : Nat := s.rf (aThread t + 8) 13 8
def thPrefEn (s : State) (t : Nat) : Bool := s.rb (aThread t + 8) 14
def thArg (s : State) (t : Nat) : Word := s.reg (aThread t + 12)
def thCtxEn (s : State) (t : Nat) : Bool := s.rb (aThread t + 16) 31
def thCtxEng (s : State) (t : Nat) : Nat := s.rf (aThread t + 16) 29 24
def thSlot (s : State) (t : Nat) : Nat := s.rf (aThread t + 16) 17 8
def flowPin (s : State) (f : Nat) : Bool := s.rb (aFlow f) 31
def flowEng (s : State) (f : Nat) : Nat := s.rf (aFlow f) 5 0
def accepts (s : State) (e : Nat) : Bool := s.rb (aPav (e / 8)) (e % 8)

/-- The engine a thread is bound to, by PIN or its pinned flow (R384, R389). -/
def boundTo (s : State) (t : Nat) : Option Nat :=
  if s.thPin t then some (s.thPref t)
  else if s.thFlowEn t ∧ s.flowPin (s.thFlow t) then some (s.flowEng (s.thFlow t))
  else none

/-! ### Ready lists (R383) -/

def level (s : State) (l : Nat) : List Nat := Table.get (fun _ => []) s.dsp.levels l
def setLevel (s : State) (l : Nat) (v : List Nat) : State :=
  { s with dsp := { s.dsp with levels := Table.set (fun _ => []) s.dsp.levels l v } }

def lvlStat (s : State) (l : Nat) : LevelStat := Table.get (fun _ => {}) s.dsp.levelStats l
def setLvlStat (s : State) (l : Nat) (v : LevelStat) : State :=
  { s with dsp := { s.dsp with levelStats := Table.set (fun _ => {}) s.dsp.levelStats l v } }
def engStat (s : State) (e : Nat) : EngStat := Table.get (fun _ => {}) s.dsp.engStats e
def setEngStat (s : State) (e : Nat) (v : EngStat) : State :=
  { s with dsp := { s.dsp with engStats := Table.set (fun _ => {}) s.dsp.engStats e v } }

/-- The highest depth a level has had (R395). -/
def noteDepth (s : State) (l : Nat) : State :=
  let st := s.lvlStat l
  s.setLvlStat l { st with depthMax := max st.depthMax (s.level l).length }

/-- Join the tail of its level, READY from now. -/
def joinTail (s : State) (t : Nat) : State :=
  let l := s.thPri t
  ((s.modThread t (fun x => { x with st := .ready, readyAt := s.now })).setLevel l (s.level l ++ [t])).noteDepth l

/-- Join the head of its level with its earlier ready time. -/
def joinHead (s : State) (t : Nat) : State :=
  let l := s.thPri t
  ((s.modThread t (fun x => { x with st := .ready })).setLevel l (t :: s.level l)).noteDepth l

/-- Leave the ready list. -/
def leaveList (s : State) (t : Nat) : State :=
  let l := s.thPri t
  s.setLevel l ((s.level l).filter (fun x => decide (x ≠ t)))

/-! ### Flows (R388) -/

/-- Another thread holds the flow of `t`. -/
def flowHeld (s : State) (t : Nat) : Bool :=
  s.thFlowEn t && (match (s.flow (s.thFlow t)).holder with | some h => decide (h ≠ t) | none => false)

/-- The thread takes its flow. -/
def takeFlow (s : State) (t : Nat) : State :=
  if s.thFlowEn t then
    let f := s.flow (s.thFlow t)
    s.setFlow (s.thFlow t) { f with holder := some t }
  else s

/-- The thread leaves its flow: of the one it holds, since its run began and whatever TH_CFG names now, the oldest waiter becomes
READY and takes it; else it waits for none any more. -/
def releaseFlow (s : State) (t : Nat) : State :=
  match s.dsp.flows.find? (fun e => decide (e.2.holder = some t)) with
  | some (n, f) =>
    match f.waiting with
    | [] => s.setFlow n { f with holder := none }
    | w :: ws => (s.setFlow n { holder := some w, waiting := ws }).joinTail w
  | none =>
    { s with dsp := { s.dsp with flows := Table.mapAll (fun _ => {}) s.dsp.flows (fun _ f =>
        { f with waiting := f.waiting.filter (fun x => decide (x ≠ t)) }) } }

/-- A thread ends in an engine fault (R391). -/
def threadFailed (s : State) (t : Nat) : State :=
  (s.releaseFlow t).modThread t (fun y => { y with st := .halted, failed := true, pend := 0 })

/-- A thread staged on any engine is no longer there. -/
def unstageThread (s : State) (t : Nat) : State :=
  (List.range 64).foldl (fun (s : State) e =>
    match (s.eng e).staged with
    | some (u, _) => if u = t then s.modEng e (fun x => { x with staged := none, stagedReady := false }) else s
    | none => s) s

/-- A thread is lost by an error of the tables: out of its list or bank, HALTED with FAILED (R484). -/
def threadHalt (s : State) (t : Nat) : State :=
  let s1 := match (s.thread t).st with
    | .ready => s.leaveList t
    | .staged => s.unstageThread t
    | _ => s
  s1.threadFailed t

/-- The flow of an entry that reads uncorrectable frees; its holder and waiters fail (R484). -/
def flowLost (s : State) (f : Nat) : State :=
  let x := s.flow f
  let ths := (match x.holder with | some h => [h] | none => []) ++ x.waiting
  ths.foldl (fun (s : State) t => s.threadHalt t) (s.setFlow f {})

/-- The entry of flow f is read (R484, R486). -/
def flowMeet (s : State) (f : Nat) : State :=
  match s.entryUpset (flowWords f) with
  | .corrected => s.logEvent 0x01 0x0007 (w32 f) 0 0
  | .uncorrectable => ((s.mendAll (flowWords f)).logEvent 0x02 0x0007 (w32 f) 0 0).flowLost f
  | _ => s

/-- The entry of thread t is read (R484, R486). -/
def threadMeet (s : State) (t : Nat) : State :=
  match s.entryUpset (threadWords t) with
  | .corrected => s.logEvent 0x01 0x0007 (w32 t) 0 0
  | .uncorrectable => ((s.mendAll (threadWords t)).logEvent 0x02 0x0007 (w32 t) 0 0).threadHalt t
  | _ => s

/-- A thread goes READY, or FLOW_WAIT while its flow is held (R381, R382). -/
def goReady (s0 : State) (t : Nat) (info : Word) : State :=
  let s := if s0.thFlowEn t then s0.flowMeet (s0.thFlow t) else s0
  let s1 := s.modThread t (fun x => { x with info := info })
  if s1.flowHeld t then
    let n := s1.thFlow t
    let f := s1.flow n
    (s1.setFlow n { f with waiting := f.waiting ++ [t] }).modThread t (fun x => { x with st := .flowWait })
  else (s1.takeFlow t).joinTail t

/-! ### Posts (R379-R381) -/

/-- A source already holds its pending bit (R380). -/
def postHeld (s : State) (src : PostSrc) : Bool :=
  s.dsp.intake.any (fun p => match p.src, src with
    | .channel c _, .channel d _ => decide (c = d)
    | .cistern i _, .cistern j _ => decide (i = j)
    | a, b => decide (a = b))

/-- A post reaches the intake; a further event of a waiting source merges into it. -/
def presentPost (s : State) (src : PostSrc) (thread : Nat) (info : Word) : State :=
  if s.postHeld src then s.addCnt 0xC0002C 1
  else { s with dsp := { s.dsp with intake := s.dsp.intake ++ [({ src := src, thread := thread, info := info } : Post)] } }

/-- A channel event posts through its binding (R378). -/
def channelEvent (s : State) (c ev : Nat) : State :=
  let a := 0xC00400 + 4 * c
  if s.rb a 31 ∧ s.rb a (28 + ev) then
    s.presentPost (.channel c ev) (s.rf a 12 0) (w32 (0x40000000 + ev * 0x10000 + c))
  else s

/-- A Cistern event posts through its binding (R378). -/
def cisternEvent (s : State) (i ev : Nat) : State :=
  let a := 0xC00800 + 4 * i
  if s.rb a 31 ∧ s.rb a (28 + ev) then
    s.presentPost (.cistern i ev) (s.rf a 12 0) (w32 (0x50000000 + ev * 0x10000 + i))
  else s

/-- The posts the dispatcher may still decide in this timebase clock: four in each of its own, of 800 ps (R374, R379; their phase
DESIGN CHOICE, log entry 41). -/
def postRoom (s : State) : Nat := 4 * ((s.now + 2000) / 800 - s.now / 800) - s.tick.decided

/-- A post has been decided in this clock. -/
def noteDecided (s : State) : State := s.setTick { s.tick with decided := s.tick.decided + 1 }

/-- The decision of a post: accepted or refused, and the state after it (R381). -/
def decidePost (s0 : State) (t : Nat) (info : Word) : Bool × State :=
  let s := s0.threadMeet t
  let x := s.thread t
  let refuse := (false, (s.addCnt 0xC00024 1).traceMake 2 0 0x11 (w32 t) info)
  let accept := fun (s : State) => (true, (s.addCnt 0xC00020 1).traceMake 2 0 0x10 (w32 t) info)
  if !s.dspEn then refuse
  else match x.st with
  | .disabled | .halted | .ending => refuse
  | .idle => accept (s.goReady t info)
  | _ =>
    if s.thPmax t = 0 then accept (s.addCnt 0xC00028 1)
    else if x.pend < s.thPmax t then accept (s.modThread t (fun y => { y with pend := y.pend + 1 }))
    else refuse

/-! ### Returns of threads (R382, R387, R391) -/

/-- The thread's run on an engine is its own: it is RUNNING or ENDING. A thread that went HALTED under way (R484) is not. -/
def runsThread (s : State) (t : Nat) : Bool := decide ((s.thread t).st = .running) || decide ((s.thread t).st = .ending)

/-- A run ends with TEXIT. A thread that ends after its EN was cleared and set again becomes IDLE. -/
def threadExit (s : State) (t : Nat) : State :=
  if !s.runsThread t then s else
  let x := s.thread t
  let s1 := (s.releaseFlow t).modThread t (fun y => { y with saved := false })
  if x.st = .ending then s1.modThread t (fun y => { y with st := if s.thEn t then .idle else .disabled, pend := 0 })
  else if 0 < x.pend then (s1.modThread t (fun y => { y with pend := y.pend - 1 })).goReady t 0
  else s1.modThread t (fun y => { y with st := .idle })

/-- A thread goes back through ENGINE_STOP: head of its level, to start fresh. -/
def threadStopped (s : State) (t : Nat) : State :=
  if !s.runsThread t then s else
  let x := s.thread t
  if x.st = .ending then
    (s.releaseFlow t).modThread t (fun y => { y with
      st := if s.thEn t then .idle else .disabled, pend := 0, saved := false })
  else
    let s1 := ((s.releaseFlow t).modThread t (fun y => { y with saved := false, info := 0 })).addCnt 0xC00034 1
    if s1.flowHeld t then
      let n := s1.thFlow t
      let f := s1.flow n
      (s1.setFlow n { f with waiting := t :: f.waiting }).modThread t (fun y => { y with st := .flowWait })
    else (s1.takeFlow t).joinHead t

/-- The saved context of a thread is lost: out of its list or bank and flow, HALTED with CTX_LOST (R392). -/
def contextLost (s : State) (t : Nat) : State :=
  let s1 := match (s.thread t).st with
    | .staged => (s.unstageThread t).releaseFlow t
    | .ready => (s.leaveList t).releaseFlow t
    | .flowWait => s.releaseFlow t
    | _ => s
  s1.modThread t (fun x => { x with st := .halted, ctxLost := true, saved := false, pend := 0 })

/-- The staged thread of an engine goes back to the head of its level (R391); one whose saved context is gone by now is lost
with it (R392). -/
def unstage (s : State) (e : Nat) : State :=
  match (s.eng e).staged with
  | none => s
  | some (t, _) =>
    let s1 := (s.modEng e (fun x => { x with staged := none, stagedReady := false })).joinHead t
    if (s.thread t).saved ∧ (s.thread t).gone then s1.contextLost t else s1

/-- The same, unless the staged thread is bound to that engine. -/
def unstageUnbound (s : State) (e : Nat) : State :=
  match (s.eng e).staged with
  | none => s
  | some (t, _) => if s.boundTo t = some e then s else s.unstage e

/-! ### Staging (R383-R386) -/

/-- Engine open to staging. -/
def engOpen (s : State) (e : Nat) : Bool :=
  let x := s.eng e
  (decide (x.st = .run) || decide (x.st = .idle)) && x.staged.isNone &&
  !(s.dsp.saves.any (fun p => decide ((s.thread p.1).engine = e))) &&
  s.accepts e && s.gateOpen (pavilionId (e / 8)) && s.domainOn (pavilionId (e / 8))

/-- The preferred engine is out of service for a thread. -/
def prefOut (s : State) (e : Nat) : Bool :=
  let x := (s.eng e).st
  decide (x = .stopped) || decide (x = .monitor) || decide (x = .fault) || !s.accepts e

/-- A READY thread may be staged on open engine e; none whose save area lies in a pavilion that is off or gated (R384, R392). -/
def eligible (s : State) (t e : Nat) : Bool :=
  let x := s.thread t
  s.thMask t (e / 8) &&
  (match s.boundTo t with | some b => decide (b = e) | none => true) &&
  (!s.thPrefEn t || decide (s.thPref t = e) ||
    decide (s.rf 0xC00000 15 8 * 64000 ≤ s.now - x.readyAt) || s.prefOut (s.thPref t)) &&
  !x.writing &&
  (!(x.saved || s.thCtxEn t) || (s.domainOn (pavilionId (s.thCtxEng t / 8)) && s.gateOpen (pavilionId (s.thCtxEng t / 8))))

/-- Of two READY threads the earlier ready time, the lower number on a tie (R385). -/
def earlier (s : State) (a b : Nat) : Nat :=
  let ra := (s.thread a).readyAt
  let rb := (s.thread b).readyAt
  if rb < ra then b else if ra = rb ∧ b < a then b else a

/-- The eligible thread of the highest level with the earliest ready time. -/
def bestFor (s : State) (e : Nat) : Option Nat :=
  let levels := (List.range 32).reverse.map (fun l => (s.level l).filter (fun t => s.eligible t e))
  match levels.find? (fun ts => !ts.isEmpty) with
  | none => none
  | some ts => ts.foldl (fun acc t => match acc with | none => some t | some a => some (s.earlier a t)) none

/-- A fresh context (R378). -/
def freshCtx (s : State) (t : Nat) : Ctx :=
  { pc := s.thEntry t, g := Table.set (fun _ => 0) (Table.set (fun _ => 0) [] 1 (s.thArg t)) 2 (s.thread t).info }

/-- Stage thread t on engine e (R385). -/
def stageOn (s : State) (t e : Nat) : State :=
  let l := s.thPri t
  let wait := (s.now - (s.thread t).readyAt) / 64000
  let s1 := ((s.leaveList t).modThread t (fun x => { x with st := .staged, engine := e })).modEng e
    (fun x => { x with staged := some (t, s.freshCtx t), stagedReady := false })
  let st := s1.lvlStat l
  (s1.setLvlStat l { st with
    stagings := min (2 ^ 32 - 1) (st.stagings + 1), waitSum := min (2 ^ 32 - 1) (st.waitSum + wait),
    waitMax := max st.waitMax (min (2 ^ 32 - 1) wait) }).addCnt 0xC00030 1 |>.traceMake 2 0 0x12 (w32 t) (w32 e)

/-- The staging decision of pavilion p: the lowest open engine that has an eligible thread. -/
def stagePavilion (s : State) (p : Nat) : State :=
  let es := (List.range 8).map (fun k => 8 * p + k)
  match es.find? (fun e => s.engOpen e && (s.bestFor e).isSome) with
  | none => s
  | some e => match s.bestFor e with
    | none => s
    | some t => if s.entryUpset (threadWords t) = .uncorrectable then s.threadMeet t else (s.threadMeet t).stageOn t e

/-! ### Enables (R376, R377, R393) -/

/-- The thread consistency tests, each with the offset of the first word of the entry that it reads (R376, R92). -/
def threadCheck (s : State) (t : Nat) (cfg : Word) : Byte × Nat :=
  let flowEn := bit cfg 24
  let f := fld cfg 13 0
  let pin := bit cfg 25
  let pref := s.thPref t
  firstFail [
    (!s.dspEn, 0x07, 0),
    (decide (s.thEntry t % 4 ≠ 0), 0x02, 4),
    (decide (s.rf (aThread t + 8) 7 0 = 0), 0x02, 8),
    (pin && !s.thPrefEn t, 0x02, 0),
    (s.thPrefEn t && !s.thMask t (pref / 8), 0x02, 8),
    (flowEn && s.flowPin f && !s.thMask t (s.flowEng f / 8), 0x02, 0),
    (flowEn && s.flowPin f && pin && decide (s.flowEng f ≠ pref), 0x02, 0)]

/-- EN written 0: the thread leaves every list (R377). The fields of TH_CFG are those before the write. -/
def threadOff (s : State) (t : Nat) : State :=
  let clear := fun (s : State) => s.modThread t (fun y => { y with st := .disabled, pend := 0, saved := false })
  match (s.thread t).st with
  | .ready => clear ((s.leaveList t).releaseFlow t)
  | .flowWait => clear (s.releaseFlow t)
  | .staged =>
    clear ((s.unstageThread t).releaseFlow t)
  | .running => s.modThread t (fun y => { y with st := .ending, pend := 0, saved := false })
  | .ending => s
  | .halted => clear (s.modThread t (fun y => { y with failed := false, ctxLost := false }))
  | _ => clear s

/-- Clearing DSP_CTRL.EN (R393): every enabled thread IDLE, every flow free. -/
def dispatcherOff (s : State) : State :=
  { s with dsp := { s.dsp with
      threads := Table.mapAll (fun _ => {}) s.dsp.threads (fun t x =>
        if s.thEn t then { x with st := .idle, pend := 0, saved := false, failed := false } else x),
      flows := [], levels := [] } }

/-! ### Snapshot (R395) -/

/-- The µs of a count of ps, saturating. -/
def usWord (ps : Nat) : Word := w32 (min (2 ^ 32 - 1) (ps / 1000000))

/-- The data words of the snapshot block. -/
def snapWords (s : State) : List Word :=
  let lv := (List.range 32).flatMap (fun l =>
    let x := s.lvlStat l
    [w32 x.stagings, w32 x.waitSum, w32 x.waitMax, w32 x.depthMax])
  let en := (List.range 64).flatMap (fun e =>
    let x := s.engStat e
    let y := s.eng e
    [usWord (y.runTime - x.runBase), usWord (y.idleTime - x.idleBase), w32 x.texits, w32 x.yields])
  lv ++ en ++ [usWord (s.now - s.dsp.restartedAt)]

/-- The counters restart from 0. -/
def snapClear (s : State) : State :=
  { s with dsp := { s.dsp with
      levelStats := [], restartedAt := s.now,
      engStats := (List.range 64).foldl (fun t e =>
        Table.set (fun _ => {}) t e { runBase := (s.eng e).runTime, idleBase := (s.eng e).idleTime }) [] } }

/-- TAKE: copy, then restart with CLR of the same write; both bits clear when VALID returns (R395, R88). -/
def snapshot (s : State) (clr : Bool) : State :=
  let a := 0xC01000
  let ws := s.snapWords
  let s1 := (List.range ws.length).foldl (fun (s : State) k => s.setReg (a + 4 + 4 * k) (ws.getD k 0)) s
  let s2 := (s1.setReg a (resDone (s.reg a) false)).setReg 0xC00014 0
  if clr then s2.snapClear else s2

end State

end Sys2Proof.Machine
end

