-- ==== Sys2Proof/Machine/Flags.lean ====
section
/-!
DEFINITION. The status bits of an engine and the results they govern (R357-R359): overflow of the accumulators,
saturation, products, extraction, exponents.
-/
namespace Sys2Proof.Machine

open Sys2Proof

/-- STATUS bits (control register 1). -/
def stIE (w : Word) : Bool := bit w 0
def stFRAC (w : Word) : Bool := bit w 1
def stSATA (w : Word) : Bool := bit w 2
def stRND (w : Word) : Bool := bit w 3

/-- The exact result lies outside the signed 40-bit range. -/
def accOver (x : Int) : Bool := decide (x < -(2 ^ 39 : Nat)) || decide ((2 ^ 39 : Nat) - 1 < x)

/-- The accumulator's new value: clamped with SATA, else wrapped. -/
def accResult (status : Word) (x : Int) : BitVec 40 :=
  if stSATA status then BitVec.ofInt 40 (clampInt (-(2 ^ 39 : Nat)) ((2 ^ 39 : Nat) - 1) x) else BitVec.ofInt 40 x

/-- STATUS after an accumulation: OV[A] sets on overflow. -/
def accStatus (status : Word) (a : Nat) (x : Int) : Word :=
  if accOver x then putBit status (4 + a) true else status

/-- The product of two registers' low halves under SU and FRAC (R357), as it is added to 40 bits. -/
def product (status : Word) (su : Nat) (x y : Word) : Int :=
  let xv : Int := if su = 1 ∨ su = 3 then (x.toNat % 65536 : Nat) else signedOf 16 x.toNat
  let yv : Int := if su = 2 ∨ su = 3 then (y.toNat % 65536 : Nat) else signedOf 16 y.toNat
  let p := xv * yv
  if stFRAC status ∧ su = 0 then (if p = 0x40000000 then 0x7FFFFFFF else 2 * p) else p

/-- A value shifted left for a positive count, arithmetic right for a negative one, exactly. -/
def shiftExact (v : Int) (sh : Int) : Int := if 0 ≤ sh then v * 2 ^ sh.toNat else v / 2 ^ (-sh).toNat

/-- What AMOV moves (R358). -/
def amovWord (status : Word) (acc : BitVec 40) (sh : BitVec 5) (hi : Bool) : Word :=
  let v := shiftExact acc.toInt sh.toInt
  if hi then BitVec.ofInt 32 (clampInt (-32768) 32767 ((if stRND status then v + 2 ^ 15 else v) / 2 ^ 16))
  else BitVec.ofInt 32 (clampInt (-(2 ^ 31 : Nat)) ((2 ^ 31 : Nat) - 1) v)

/-- Leading bits of an n-bit number equal to its top bit, less one. -/
def leadCount (n v : Nat) : Nat :=
  let top := v / 2 ^ (n - 1) % 2
  (((List.range n).map (fun k => v / 2 ^ (n - 1 - k) % 2)).takeWhile (fun b => decide (b = top))).length - 1

/-- CLS (R359). -/
def clsWord (w : Word) : Word := w32 (leadCount 32 w.toNat)

/-- AEXP (R359). -/
def aexpWord (a : BitVec 40) : Word := BitVec.ofInt 32 ((leadCount 40 a.toNat : Int) - 8)

/-- Signed saturating 32-bit result of ADDS and SUBS. -/
def sat32 (x : Int) : Word := BitVec.ofInt 32 (clampInt (-(2 ^ 31 : Nat)) ((2 ^ 31 : Nat) - 1) x)

end Sys2Proof.Machine
end

