-- ==== Sys2Proof/Machine/Operands.lean ====
section
/-!
DEFINITION. The operand forms of the engines (R348-R365): general registers, scratchpad accesses of every width, address
generators, control registers, repeat levels and the next program counter.
-/
namespace Sys2Proof.Machine

open Sys2Proof

/-- The size of a scratchpad. -/
def spadSize : Nat := 0x40000

namespace Engine

/-- A general register; g0 reads 0. -/
def g (x : Engine) (n : Nat) : Word := if n = 0 then 0 else Table.get (fun _ => 0) x.ctx.g n

/-- Write a general register; g0 discards. -/
def setG (x : Engine) (n : Nat) (v : Word) : Engine :=
  if n = 0 then x else { x with ctx := { x.ctx with g := Table.set (fun _ => 0) x.ctx.g n v } }

def acc (x : Engine) (a : Nat) : BitVec 40 := if a = 0 then x.ctx.acc0 else x.ctx.acc1
def setAcc (x : Engine) (a : Nat) (v : BitVec 40) : Engine :=
  { x with ctx := if a = 0 then { x.ctx with acc0 := v } else { x.ctx with acc1 := v } }

def status (x : Engine) : Word := x.ctx.status
def setStatus (x : Engine) (w : Word) : Engine := { x with ctx := { x.ctx with status := w } }

/-- The exact sum or difference goes to acc[A] under R357: OV on overflow, clamp or wrap. -/
def putAcc (x : Engine) (a : Nat) (exact : Int) : Engine :=
  (x.setAcc a (accResult x.status exact)).setStatus (accStatus x.status a exact)

def ag (x : Engine) (n : Nat) : AddrGen := if n = 0 then x.ctx.ag0 else x.ctx.ag1
def setAg (x : Engine) (n : Nat) (v : AddrGen) : Engine :=
  { x with ctx := if n = 0 then { x.ctx with ag0 := v } else { x.ctx with ag1 := v } }

def level (x : Engine) (k : Nat) : Level := if k = 0 then x.ctx.l0 else if k = 1 then x.ctx.l1 else x.ctx.l2
def setLevel (x : Engine) (k : Nat) (v : Level) : Engine :=
  { x with ctx := if k = 0 then { x.ctx with l0 := v } else if k = 1 then { x.ctx with l1 := v } else { x.ctx with l2 := v } }

def setPc (x : Engine) (n : Nat) : Engine := { x with ctx := { x.ctx with pc := n % 2 ^ 32 } }

/-- The next address after the instruction at `pc`, the repeat levels taken back or popped from the innermost (R363). -/
def loopBack (x : Engine) (pc : Nat) : Nat → Engine
  | 0 => x.setPc (pc + 4)
  | k + 1 =>
    if x.ctx.depth ≤ k then loopBack x pc k
    else if (x.level k).le.toNat ≠ pc then x.setPc (pc + 4)
    else if 1 < (x.level k).lc.toNat then
      (x.setLevel k { x.level k with lc := (x.level k).lc - 1 }).setPc (x.level k).ls.toNat
    else loopBack { x with ctx := { x.ctx with depth := k } } pc k

/-- Past the instruction at PC. -/
def advance (x : Engine) : Engine := x.loopBack x.ctx.pc 3

/-- PC is the last instruction of an active body (R364). -/
def atBodyEnd (x : Engine) : Bool :=
  (List.range 3).any (fun k => decide (k < x.ctx.depth) && decide ((x.level k).le.toNat = x.ctx.pc))

/-- The body of a level contains an address. -/
def inBody (x : Engine) (k addr : Nat) : Bool :=
  decide ((x.level k).ls.toNat ≤ addr) && decide (addr ≤ (x.level k).le.toNat)

/-- Levels left active by a taken jump out of the innermost body (R364). -/
def popFor (x : Engine) (target : Nat) : Nat → Nat
  | 0 => 0
  | k + 1 => if x.inBody k target then k + 1 else popFor x target k

/-- A taken branch or jump to an address. -/
def jumpTo (x : Engine) (target : Nat) : Engine :=
  let d := x.ctx.depth
  let d' := if d = 0 then 0
    else if x.inBody (d - 1) x.ctx.pc ∧ !x.inBody (d - 1) target then x.popFor target d else d
  { x with ctx := { x.ctx with pc := target, depth := d' } }

/-- g28 to g31 and the interrupt shadow registers change places (R368). -/
def swapShadow (x : Engine) : Engine :=
  let old := [x.g 28, x.g 29, x.g 30, x.g 31]
  let y := (((x.setG 28 (x.shadow.getD 0 0)).setG 29 (x.shadow.getD 1 0)).setG 30 (x.shadow.getD 2 0)).setG 31
    (x.shadow.getD 3 0)
  { y with shadow := old }

/-- Handler entry at an address (R368, R370). -/
def enterHandler (x : Engine) (epc : Nat) (addr : Nat) : Engine :=
  let y := x.swapShadow
  { (y.setStatus (putBit y.status 0 false)).setPc addr with
    epc := w32 epc, estat := x.status, reservation := none, handler := true,
    fromIdle := decide (x.st = .idle), st := .run }

end Engine

namespace AddrGen

/-- A pointer value brought back into the generator's range (R360). -/
def wrap (g : AddrGen) (v : Int) : Nat :=
  if g.len = 0 then (v % 2 ^ 18).toNat
  else
    let v1 := if (g.base + g.len : Nat) ≤ v then v - g.len else if v < g.base then v + g.len else v
    (v1 % 2 ^ 18).toNat

/-- The pointer after its use. -/
def next (g : AddrGen) : AddrGen := { g with ptr := g.wrap (g.ptr + g.step) }

/-- The states that fault FTAP and FTAPN (R360). -/
def bad (g : AddrGen) : Bool :=
  decide (g.ptr % 2 = 1) || decide (g.len % 2 = 1) ||
  (decide (g.len ≠ 0) && (decide (g.len ≤ g.step.natAbs) || decide (g.ptr < g.base) || decide (g.base + g.len ≤ g.ptr)))

end AddrGen

/-- The word and bytes of a scratchpad, most significant byte at the lowest address (DESIGN CHOICE, log entry 8). -/
def State.spadByte (s : State) (e a : Nat) : Byte := Table.get (fun _ => 0) s.spad (e * spadSize + a)

/-- Read n bytes. -/
def State.spadRead (s : State) (e a n : Nat) : Nat := beNat ((List.range n).map (fun k => s.spadByte e (a + k)))

/-- The coded 64-bit word of an address is marked uncorrectable. -/
def State.spadBadAt (s : State) (e a : Nat) : Bool := Table.get (fun _ => false) s.spadBad (e * (spadSize / 8) + a / 8)

/-- A read meets a coded word that holds a correctable error: logged, not written back (R356, R486). -/
def State.spadMeet (s : State) (e a : Nat) : State :=
  if s.weak = [] then s
  else if s.weakAt (.scratchpad e (a / 8 * 8)) = .corrected then s.logEvent 0x01 (engineId e) (w32 (a / 8 * 8)) 0 0 else s

/-- A byte as fetch sees it: as it was before a store of the last eight instructions (R353). -/
def State.codeByte (s : State) (e a : Nat) : Byte :=
  match (s.eng e).oldCode.find? (fun x => decide (x.1 = a)) with
  | some x => x.2.1
  | none => s.spadByte e a

/-- The word fetch reads at an address. -/
def State.codeWord (s : State) (e a : Nat) : Word := w32 (beNat ((List.range 4).map (fun k => s.codeByte e (a + k))))

/-- The engine stores to n bytes: fetch sees them from the ninth instruction after this one (R353). -/
def State.noteCode (s : State) (e a n : Nat) : State :=
  s.modEng e (fun x => { x with
    oldCode := x.oldCode ++ (List.range n).map (fun k => (a + k, s.spadByte e (a + k), 8)) })

/-- An instruction issues: the stores before it are one instruction older. -/
def Engine.ageCode (x : Engine) : Engine :=
  { x with oldCode := (x.oldCode.map (fun c => (c.1, c.2.1, c.2.2 - 1))).filter (fun c => decide (c.2.2 ≠ 0)) }

/-- Write n bytes of a value; a whole 64-bit word written clears its mark, and every write stores the coded word anew. -/
def State.spadWrite (s : State) (e a n v : Nat) : State :=
  let s1 : State := { s with
    spad := Table.setList (fun _ => 0) s.spad (e * spadSize + a) (natBytes n v)
    weak := if s.weak = [] then s.weak else (s.mend (.scratchpad e (a / 8 * 8))).weak }
  if n = 8 then { s1 with spadBad := Table.set (fun _ => false) s1.spadBad (e * (spadSize / 8) + a / 8) false } else s1

/-- A store or external write clears a reservation on its granule (R365). -/
def Engine.clearRes (x : Engine) (a : Nat) : Engine :=
  if x.reservation = some (a / 8) then { x with reservation := none } else x

/-- An external write of a word to a scratchpad. -/
def State.spadPut (s : State) (e a : Nat) (w : Word) : State :=
  (s.spadWrite e a 4 w.toNat).modEng e (fun x => x.clearRes a)

/-- Local time words (control registers 40 to 44): superframe, frame and phase, seconds high and low, nanoseconds. -/
def State.localTime (s : State) : List Word :=
  let t := (timeForm s.tb.devTime).toNat
  [fpSf s.tb.fp, fpFrPh s.tb.fp, w32 (t / 2 ^ 80), w32 (t / 2 ^ 48), w32 (t / 2 ^ 16)]

/-- The high and low words of an accumulator. -/
def accHi (a : BitVec 40) : Word := BitVec.ofInt 32 (signedOf 8 (a.toNat / 2 ^ 32))
def accLo (a : BitVec 40) : Word := w32 a.toNat

/-- MFC: a control register's value (R348); numbers not listed return 0. -/
def State.crRead (s : State) (e n : Nat) : Word :=
  let x := s.eng e
  match n with
  | 0 => w32 x.ctx.pc
  | 1 => x.status
  | 2 => x.epc
  | 3 => x.estat
  | 4 => x.ecause
  | 5 => s.reg (aEng e + 0x24)
  | 6 => s.reg (aEng e + 0x20)
  | 7 => s.reg (aEng e + 0x2C)
  | 8 => w32 x.ctx.ag0.ptr
  | 9 => BitVec.ofInt 32 x.ctx.ag0.step
  | 10 => w32 x.ctx.ag0.base
  | 11 => w32 x.ctx.ag0.len
  | 12 => w32 x.ctx.ag1.ptr
  | 13 => BitVec.ofInt 32 x.ctx.ag1.step
  | 14 => w32 x.ctx.ag1.base
  | 15 => w32 x.ctx.ag1.len
  | 16 => x.ctx.l0.lc
  | 17 => x.ctx.l1.lc
  | 18 => x.ctx.l2.lc
  | 19 => x.ctx.l0.ls
  | 20 => x.ctx.l1.ls
  | 21 => x.ctx.l2.ls
  | 22 => x.ctx.l0.le
  | 23 => x.ctx.l1.le
  | 24 => x.ctx.l2.le
  | 25 => w32 x.ctx.depth
  | 32 => accHi x.ctx.acc0
  | 33 => accLo x.ctx.acc0
  | 34 => accHi x.ctx.acc1
  | 35 => accLo x.ctx.acc1
  | 40 => s.localTime.getD 0 0
  | n => if 26 ≤ n ∧ n ≤ 31 then Table.get (fun _ => 0) x.ctx.resd (n - 26)
         else if 41 ≤ n ∧ n ≤ 44 then x.tlatch.getD (n - 40) 0 else 0

/-- MFC of 40 latches the five local time words (R348). -/
def State.crLatch (s : State) (e n : Nat) : State :=
  if n = 40 then s.modEng e (fun x => { x with tlatch := s.localTime }) else s

/-- STATUS as MTC leaves it: the sticky overflow bits only clear (control register 1). -/
def statusWrite (old v : Word) : Word := (v &&& 0xF) ||| (old &&& v &&& 0x30)

/-- MTC to a control register of the engine record; none where it is illegal (R348). -/
def Engine.crWrite (x : Engine) (n : Nat) (v : Word) : Option Engine :=
  let c := x.ctx
  let p := v.toNat % 2 ^ 18
  match n with
  | 1 => some (x.setStatus (statusWrite x.status v))
  | 2 => some { x with epc := v }
  | 3 => some { x with estat := v }
  | 4 => some { x with ecause := v }
  | 5 | 6 | 7 => some x
  | 8 => some { x with ctx := { c with ag0 := { c.ag0 with ptr := p } } }
  | 9 => some { x with ctx := { c with ag0 := { c.ag0 with step := v.toInt } } }
  | 10 => some { x with ctx := { c with ag0 := { c.ag0 with base := p } } }
  | 11 => some { x with ctx := { c with ag0 := { c.ag0 with len := p } } }
  | 12 => some { x with ctx := { c with ag1 := { c.ag1 with ptr := p } } }
  | 13 => some { x with ctx := { c with ag1 := { c.ag1 with step := v.toInt } } }
  | 14 => some { x with ctx := { c with ag1 := { c.ag1 with base := p } } }
  | 15 => some { x with ctx := { c with ag1 := { c.ag1 with len := p } } }
  | 16 => some { x with ctx := { c with l0 := { c.l0 with lc := v } } }
  | 17 => some { x with ctx := { c with l1 := { c.l1 with lc := v } } }
  | 18 => some { x with ctx := { c with l2 := { c.l2 with lc := v } } }
  | 19 => some { x with ctx := { c with l0 := { c.l0 with ls := v } } }
  | 20 => some { x with ctx := { c with l1 := { c.l1 with ls := v } } }
  | 21 => some { x with ctx := { c with l2 := { c.l2 with ls := v } } }
  | 22 => some { x with ctx := { c with l0 := { c.l0 with le := v } } }
  | 23 => some { x with ctx := { c with l1 := { c.l1 with le := v } } }
  | 24 => some { x with ctx := { c with l2 := { c.l2 with le := v } } }
  | 32 => some { x with ctx := { c with acc0 := BitVec.ofNat 40 (v.toNat % 256 * 2 ^ 32 + c.acc0.toNat % 2 ^ 32) } }
  | 33 => some { x with ctx := { c with acc0 := BitVec.ofNat 40 (c.acc0.toNat / 2 ^ 32 * 2 ^ 32 + v.toNat) } }
  | 34 => some { x with ctx := { c with acc1 := BitVec.ofNat 40 (v.toNat % 256 * 2 ^ 32 + c.acc1.toNat % 2 ^ 32) } }
  | 35 => some { x with ctx := { c with acc1 := BitVec.ofNat 40 (c.acc1.toNat / 2 ^ 32 * 2 ^ 32 + v.toNat) } }
  | n => if 26 ≤ n ∧ n ≤ 31 then some { x with ctx := { c with resd := Table.set (fun _ => 0) c.resd (n - 26) v } }
         else none

/-- MTC: the engine record and the registers it shares with ENG_IRQ_PEND, ENG_IRQ_EN and ENG_IVEC (R348). -/
def State.crWrite (s : State) (e n : Nat) (v : Word) : Option State :=
  match (s.eng e).crWrite n v with
  | none => none
  | some x =>
    let s1 := s.setEng e x
    -- an edge of this clock stays pending (R82, R369)
    some (if n = 5 then s1.setReg (aEng e + 0x24) (s.reg (aEng e + 0x24) &&& ~~~(v &&& ~~~s.setNow (aEng e + 0x24)) &&& 0xFFFF)
      else if n = 6 then s1.setReg (aEng e + 0x20) (v &&& 0xFFFF)
      else if n = 7 then s1.setReg (aEng e + 0x2C) (v &&& 0x3FE00) else s1)

/-- The words of a context as the save area holds them, from its offset 0: g1 to g31, STATUS, control registers 8 to 35,
PC (DESIGN CHOICE, log entry 9). -/
def ctxWords (c : Ctx) : List Word :=
  let x : Engine := { ctx := c }
  let z : State := State.setEng {} 0 x
  (List.range 31).map (fun k => x.g (k + 1)) ++ [c.status] ++ (List.range 28).map (fun k => z.crRead 0 (k + 8)) ++ [w32 c.pc]

/-- The context that those words hold. -/
def ctxOfWords (ws : List Word) : Ctx :=
  let x0 : Engine := {}
  let x1 := (List.range 31).foldl (fun (x : Engine) k => x.setG (k + 1) (ws.getD k 0)) x0
  let x2 := (List.range 28).foldl (fun (x : Engine) k => (x.crWrite (k + 8) (ws.getD (32 + k) 0)).getD x) x1
  { x2.ctx with status := ws.getD 31 0, depth := (ws.getD 49 0).toNat % 4, pc := (ws.getD 60 0).toNat }

/-- Write a context to its save area (R387). -/
def State.saveCtx (s : State) (e slot : Nat) (c : Ctx) : State :=
  let ws := ctxWords c
  (List.range ws.length).foldl (fun (s : State) k => s.spadPut e (slot * 256 + 4 * k) (ws.getD k 0)) s

/-- The reading of a save area meets the errors of its coded words (R486, R488). -/
def State.contextMeet (s : State) (e slot : Nat) : State :=
  (List.range 31).foldl (fun (s : State) k =>
    let a := slot * 256 + 8 * k
    if s.spadBadAt e a then s.logEvent 0x02 (engineId e) (w32 a) 0 0 else s.spadMeet e a) s

/-- The context in a save area. -/
def State.loadCtx (s : State) (e slot : Nat) : Ctx :=
  ctxOfWords ((List.range 61).map (fun k => w32 (s.spadRead e (slot * 256 + 4 * k) 4)))

end Sys2Proof.Machine
end

