-- ==== Sys2Proof/Machine/Engine.lean ====
section
/-!
DEFINITION. What an engine does around an instruction (R344-R372): issue, faults and traps, MONITOR, bank switches, stops,
window accesses, the watchdog and interrupts.
-/
namespace Sys2Proof.Machine

open Sys2Proof

namespace State

/-! ### Fields -/

def trapEn (s : State) (e : Nat) : Bool := s.rb (aEng e) 4
def engPri (s : State) (e : Nat) : Nat := s.rf (aEng e) 1 0
def ivec (s : State) (e : Nat) : Nat := (s.reg (aEng e + 0x2C)).toNat
def attached (s : State) (e : Nat) : Bool := s.rb (0xE80100 + 4 * (e / 32)) (e % 32)

/-- The watchdog's full period in units of Device Time (R371). -/
def wdogFull (s : State) (e : Nat) : Nat := s.rf (aEng e + 0x30) 15 0 * 1000 * dtPerNs

/-- The engine watchdog reloads (R371). -/
def reloadWdog (s : State) (e : Nat) : State := s.modEng e (fun x => { x with wdog := s.wdogFull e })

/-- The key under which the present clock keeps the edges on inputs that were pending already (R369). -/
def aAgain (e : Nat) : Nat := aEng e + 0x25

/-- Raise interrupt inputs of an engine (R368). -/
def raiseIrq (s : State) (e : Nat) (mask : Word) : State :=
  let old := s.reg (aEng e + 0x24)
  (s.setReg (aEng e + 0x24) ((old ||| mask) &&& 0xFFFF)).setTick
    ((s.tick.noteSet (aEng e + 0x24) (mask &&& 0xFFFF)).noteSet (aAgain e) (old &&& mask &&& 0xFFFF))

/-! ### MONITOR (R372, R533, R536) -/

/-- One engine enters MONITOR; its continuation PC is its PC. -/
def monitorOne (s : State) (e cause k : Nat) : State :=
  ((s.modEng e (fun x => { x with
      st := .monitor, reservation := none,
      dbg := { x.dbg with evtCause := cause, evtK := k, stepping := false, haltPending := false, watchHit := none } }))
    |>.unstageUnbound e).traceStop 1 |>.traceMake 1 e 0x06 (w32 cause) (w32 (s.eng e).ctx.pc)

/-- A halt request to an engine in RUN or IDLE: at once, or after the access it waits for. -/
def haltOne (s : State) (e : Nat) : State :=
  let x := s.eng e
  if x.st = .run ∨ x.st = .idle then
    if x.wait.isSome then s.modEng e (fun y => { y with dbg := { y.dbg with haltPending := true } })
    else s.monitorOne e 0 0
  else s

/-- MONITOR entry with the cross halt of R536. -/
def monitorEntry (s : State) (e cause k : Nat) : State :=
  let s1 := s.monitorOne e cause k
  if s1.rb 0xE80080 0 ∧ s1.attached e then
    (List.range 64).foldl (fun (s : State) i => if i ≠ e ∧ s.attached i then s.haltOne i else s) s1
  else s1

/-! ### Faults and traps (R370) -/

/-- The causes that carry a data address. -/
def hasAddr (cause : Nat) : Bool := cause ∈ [2, 3, 4, 5, 8]

/-- The engine enters FAULT: the record, the log, the thread failed, the staged thread back (R370, R391). -/
def enterFault (s : State) (e cause addr : Nat) : State :=
  let a := aEng e
  let old := s.reg (a + 0x10)
  let n := min 0xFFFF (fld old 15 0 + 1)
  let pc := (s.eng e).ctx.pc
  let s1 := ((s.setReg (a + 0x10) (at_ 28 cause ||| w32 n)).setRb (a + 0x10) 27 true).setReg (a + 0x14) (w32 pc)
  let s2 := if hasAddr cause then s1.setReg (a + 0x18) (w32 addr) else s1
  let s3 := s2.modEng e (fun x => { x with
    st := .fault, wait := none, dbg := { x.dbg with stepping := false, haltPending := false, watchHit := none } })
  let th := (s.eng e).thread
  let s4 := if (s.eng e).tvalid
    then (if s.runsThread th then s3.threadFailed th else s3).modEng e (fun x => { x with tvalid := false }) else s3
  ((s4.unstage e).logEvent 0x38 (engineId e) (w32 pc) 0 cause).traceMake 1 e 0x05 (w32 cause) (w32 pc)

/-- A fault cause: a trap to IVEC + 0x100 where R370 allows one, else FAULT. -/
def engineFault (s : State) (e cause addr : Nat) : State :=
  let x := s.eng e
  if s.trapEn e ∧ stIE x.status ∧ cause ≠ 7 ∧ cause ≠ 8 then
    s.setEng e { (x.enterHandler x.ctx.pc (s.ivec e + 0x100)) with
      ecause := w32 cause, wait := none, fromIdle := false }
  else s.enterFault e cause addr

/-! ### Bank switches (R366) and stops (R347) -/

/-- The ready second bank becomes the active one; with none the engine idles. -/
def bankSwitch (s : State) (e : Nat) : State :=
  let x := s.eng e
  match x.staged, x.stagedReady with
  | some (t, c), true =>
    let s1 := (s.setEng e { x with
      ctx := c, bank := !x.bank, tvalid := true, thread := t, staged := none, stagedReady := false, st := .run })
    ((s1.modThread t (fun y => { y with st := .running })).reloadWdog e).traceMake 1 e 0x01 (w32 t) (w32 c.pc)
  | _, _ => s.modEng e (fun y => { y with st := .idle, tvalid := false })

/-- An IDLE engine starts the thread staged on it (R386). -/
def idleTake (s : State) (e : Nat) : State :=
  let x := s.eng e
  if x.st = .idle ∧ x.stagedReady then s.bankSwitch e else s

/-- The PC an ENGINE_STOP replies with (R347). -/
def stopPc (s : State) (e : Nat) : Word :=
  if (s.eng e).st = .fault then s.reg (aEng e + 0x14) else w32 (s.eng e).ctx.pc

/-- The engine stops at this boundary: threads back to the dispatcher, reservation cleared, session left. -/
def engineStopNow (s : State) (e : Nat) : State :=
  let x := s.eng e
  if x.st = .stopped then s
  else
    let pc := (s.stopPc e).toNat
    let s0 := if x.st = .monitor then s.setRb (0xE80100 + 4 * (e / 32)) (e % 32) false else s
    let s1 := s0.unstage e
    let s2 := if x.tvalid then s1.threadStopped x.thread else s1
    s2.modEng e (fun y => { (y.setPc pc) with
      st := .stopped, tvalid := false, reservation := none, wait := none, stopPending := false, handler := false,
      fromIdle := false, dbg := { y.dbg with stepping := false, haltPending := false, watchHit := none } })

/-! ### Issue -/

/-- After an instruction, or the end of its wait: a stop or halt that waited, a step, a watchpoint (R347, R533, R535). -/
def settle (s : State) (e : Nat) : State :=
  let x := s.eng e
  if x.wait.isSome then s
  else if x.stopPending then
    let pc := s.stopPc e
    (s.engineStopNow e).finishWait (fun o => decide (o = 0x4A)) 0 0 [pc]
  else if x.st ≠ .run ∧ x.st ≠ .idle then s
  else if x.dbg.stepping then s.monitorEntry e 4 0
  else match x.dbg.watchHit with
    | some k => s.monitorEntry e 3 k
    | none => if x.dbg.haltPending then s.monitorEntry e 0 0 else s

/-- The breakpoint that meets an instruction address in a session (R533). -/
def breakAt (s : State) (e pc : Nat) : Option Nat :=
  if s.attached e ∧ !(s.eng e).dbg.skip then
    firstBelow 4 (fun k =>
      let w := Table.get (fun _ => 0) (s.eng e).dbg.bkpt k
      bit w 31 && decide ((w &&& 0x3FFFC).toNat = pc))
  else none

/-- A watchpoint that meets an access (R533). -/
def watchAt (s : State) (e a : Nat) (store : Bool) : Option Nat :=
  if s.attached e then
    firstBelow 2 (fun k =>
      let w := Table.get (fun _ => 0) (s.eng e).dbg.watch k
      bit w 31 && bit w (if store then 29 else 30) && decide ((w &&& 0x3FFF8).toNat = a / 8 * 8))
  else none

/-- Note an engine's own scratchpad access for its watchpoints. -/
def noteAccess (s : State) (e a : Nat) (store : Bool) : State :=
  match s.watchAt e a store with
  | some k => s.modEng e (fun x => { x with dbg := { x.dbg with watchHit := x.dbg.watchHit.or (some k) } })
  | none => s

/-- An engine that may issue an instruction now: it runs, waits for nothing, and is powered and clocked: EPLL's D0 gives the
clock, which pavilion's and ridge's gates pass on (R336, R343). -/
def mayIssue (s : State) (e : Nat) : Bool :=
  s.live && decide ((s.eng e).st = .run) && (s.eng e).wait.isNone &&
  s.domainOn (pavilionId (e / 8)) && s.gateOpen (pavilionId (e / 8)) && s.pllOut 14 0

/-- The instruction counts as issued (ENG_CNT_INSTR). -/
def issued (s : State) (e : Nat) : State :=
  (s.modEng e (fun x => { x.ageCode with dbg := { x.dbg with skip := false } })).addCnt (aEng e + 0x40) 1

/-- One instruction of an engine: fetch rules of R349, breakpoints, the code of the word it is fetched from (R356), its effect,
and what waited for its boundary. -/
def issue (s : State) (e : Nat) (f : State → State) : State :=
  let pc := (s.eng e).ctx.pc
  if spadSize ≤ pc then s.engineFault e 3 pc
  else if pc % 4 ≠ 0 then s.engineFault e 2 pc
  else match s.breakAt e pc with
    | some k => s.monitorEntry e 2 k
    | none =>
      if s.spadBadAt e pc then ((s.issued e).engineFault e 8 pc).settle e
      else (f ((s.issued e).spadMeet e pc)).settle e

end State

/-- The row of an engine instruction: engine and register numbers exist; an engine that may not issue is unchanged. -/
def instr (e : Nat) (regs : List Nat) (s : State) (f : State → State) : Out :=
  if e < 64 ∧ regs.all (fun r => decide (r < 32)) then .next (if s.mayIssue e then s.issue e f else s)
  else .fault .noSuchUnit

namespace State

/-- The engine's record changes and it goes on to the next instruction. -/
def put (s : State) (e : Nat) (f : Engine → Engine) : State := s.modEng e (fun x => (f x).advance)

/-- A register result. -/
def putG (s : State) (e rd : Nat) (v : Word) : State := s.put e (fun x => x.setG rd v)

/-! ### Loads and stores (R349, R350, R365) -/

/-- The load and store address. -/
def dataAddr (s : State) (e ra : Nat) (imm : BitVec 16) : Nat := ((s.eng e).g ra + imm.signExtend 32).toNat

/-- The parameter window (R349). -/
def inWindow (a : Nat) : Bool := decide (0x80000000 ≤ a ∧ a < 0x91000000)

/-- Send a window request, or wait for room (R265, R350). -/
def windowSend (s : State) (e : Nat) (kind : RwKind) (use : RwUse) (a : Nat) (data : Word) : State :=
  let pa := a - 0x80000000
  let src := pavilionPort (e / 8)
  let p : RwPkt := {
    pri := s.engPri e, kind := kind, dst := portOfAddr pa, src := src, addr := w32 pa, data := data }
  if 64 ≤ s.unacked src ∨ !s.portTakes src p.dst then s.modEng e (fun x => { x with wait := some (.room p use) })
  else
    let s1 := s.rwSend use (some e) p
    match use with
    | .load rd => s1.modEng e (fun x => { x with wait := some (.load rd) })
    | .store => s1.modEng e (fun x => { x with wait := some .store })
    | _ => s1.put e id

/-- A window access: a range closed to engines or outside the space is a bus error, logged (R30, R74, R350). -/
def windowAccess (s : State) (e : Nat) (kind : RwKind) (use : RwUse) (a : Nat) (data : Word) : State :=
  let write := decide (kind ≠ .read)
  let s1 := s.addCnt (aEng e + 0x4C) 1
  let ok := match placeOf (a - 0x80000000) with | some (p, _) => openTo p write | none => false
  if ok then s1.windowSend e kind use a data
  else
    let s2 := s1.logEvent 0x20 (engineId e) (w32 (a - 0x80000000)) 0 (pavilionPort (e / 8))
    if use = .posted then s2.put e id else s2.engineFault e 4 a

/-- A load of n bytes; `fin` takes the number read to the register word. -/
def load (s : State) (e rd ra : Nat) (imm : BitVec 16) (n : Nat) (fin : Nat → Word) : State :=
  let a := s.dataAddr e ra imm
  if inWindow a then
    if n ≠ 4 ∨ a % 4 ≠ 0 then s.engineFault e 2 a else s.windowAccess e .read (.load rd) a 0
  else if spadSize ≤ a then s.engineFault e 3 a
  else if a % n ≠ 0 then s.engineFault e 2 a
  else if s.spadBadAt e a then s.engineFault e 8 a
  else ((s.noteAccess e a false).spadMeet e a).putG e rd (fin (s.spadRead e a n))

/-- A store of n bytes into the own scratchpad: its faults, else the write, which clears a reservation it meets. -/
def storeLocal (s : State) (e a n v : Nat) : State :=
  if spadSize ≤ a then s.engineFault e 3 a
  else if a % n ≠ 0 then s.engineFault e 2 a
  else if n < 8 ∧ s.spadBadAt e a then s.engineFault e 8 a
  else (((s.noteAccess e a true).noteCode e a n).spadWrite e a n v).put e (fun x => x.clearRes a)

/-- STW and STWS (R350); the narrower stores and STD do not reach the window. -/
def storeWord (s : State) (e rd ra : Nat) (imm : BitVec 16) (wait : Bool) : State :=
  let a := s.dataAddr e ra imm
  let v := (s.eng e).g rd
  if inWindow a then
    if a % 4 ≠ 0 then s.engineFault e 2 a
    else if wait then s.windowAccess e .write .store a v else s.windowAccess e .posted .posted a v
  else s.storeLocal e a 4 v.toNat

def store (s : State) (e ra : Nat) (imm : BitVec 16) (n v : Nat) : State :=
  let a := s.dataAddr e ra imm
  if inWindow a then s.engineFault e 2 a else s.storeLocal e a n v

/-! ### Ends of waits -/

/-- An instruction that waited completes. -/
def endWait (s : State) (e : Nat) (f : Engine → Engine) : State :=
  (s.modEng e (fun x => (f { x with wait := none }).advance)).settle e

/-- The requests of other initiators that wait at a port leave while there is room (R265). -/
def roomForOthers (s : State) (port : Nat) : State :=
  s.rw.waiting.foldl (fun (s : State) p =>
    if p.src = port ∧ s.unacked port < 64 ∧ s.portTakes port p.dst then
      State.rwSend { s with rw := { s.rw with waiting := s.rw.waiting.erase p } } .other none p
    else s) s

/-- Engines of a port that wait for room send their packet while there is room (R265, R270), then the others. -/
def roomFor (s : State) (port : Nat) : State :=
  roomForOthers ((List.range 64).foldl (fun (s : State) e =>
    match (s.eng e).wait with
    | some (.room p use) =>
      if p.src = port ∧ s.unacked port < 64 ∧ s.portTakes port p.dst then
        let s1 := s.rwSend use (some e) p
        match use with
        | .load rd => s1.modEng e (fun x => { x with wait := some (.load rd) })
        | .store => s1.modEng e (fun x => { x with wait := some .store })
        | _ => s1.endWait e id
      else s
    | _ => s) s) port

/-- Every port sends what it can of the requests that wait at it: route tables have switched, or a fence has opened. -/
def resumePorts (s : State) : State :=
  s.rw.waiting.foldl (fun (s : State) p => s.roomForOthers p.src)
    ((List.range 8).foldl (fun (s : State) v => s.roomFor (pavilionPort v)) s)

/-- The engine has a posted write without its PACK (R350). -/
def postedOpen (s : State) (e : Nat) : Bool :=
  s.rw.outstanding.any (fun o => decide (o.eng = some e) && decide (o.pkt.kind = .posted))

/-- What the end of a request means for the engine that sent it: data or DONE, an error, a PACK (R350). -/
def engineAnswer (s : State) (o : Outstanding) (err : Bool) (data : Word) : State :=
  match o.eng with
  | none => s
  | some e =>
    match o.use, (s.eng e).wait with
    | .load rd, some (.load _) =>
      if err then (s.modEng e (fun x => { x with wait := none })).engineFault e 4 (0x80000000 + o.pkt.addr.toNat) |>.settle e
      else s.endWait e (fun x => x.setG rd data)
    | .store, some .store =>
      if err then (s.modEng e (fun x => { x with wait := none })).engineFault e 4 (0x80000000 + o.pkt.addr.toNat) |>.settle e
      else s.endWait e id
    | .posted, some .fence => if s.postedOpen e then s else s.endWait e id
    | _, _ => s

/-- A response or the abandonment of a request at its initiator (R265, R267). -/
def rwDone (s : State) (o : Outstanding) (err : Bool) (data : Word) : State :=
  ((s.rwRetire o err).engineAnswer o err data).roomFor o.pkt.src

/-! ### Interrupts (R368, R369) -/

/-- The input an interrupt entry would take now. -/
def irqInput (s : State) (e : Nat) : Option Nat :=
  let x := s.eng e
  if (x.st = .run ∨ x.st = .idle) ∧ x.wait.isNone ∧ stIE x.status ∧ !x.dbg.stepping then
    firstBelow 16 (fun i => s.rb (aEng e + 0x24) i && s.rb (aEng e + 0x20) i)
  else none

/-- Interrupt entry on input i; an edge of this clock on the pending input leaves it pending (R369). The watchdog, held in IDLE,
never resumes its remaining count: an entry from IDLE reloads it (DEDUCED from R371, log entry 80). -/
def takeIrq (s : State) (e i : Nat) : State :=
  let x := s.eng e
  let s1 := (s.setRb (aEng e + 0x24) i (bit (Table.get (fun _ => 0) s.tick.set (aAgain e)) i)).setEng e
    (x.enterHandler x.ctx.pc (s.ivec e + 0x10 * i))
  (if x.st = .idle then s1.reloadWdog e else s1).traceMake 1 e 0x04 (w32 i) (w32 x.ctx.pc)

end State

end Sys2Proof.Machine
end

