-- ==== Sys2Proof/Machine/EngineAlu.lean ====
section
/-!
DEFINITION. The arithmetic, logic, shift, block exponent and multiply instructions of the engines (R351, R359).
-/
namespace Sys2Proof.Machine

open Sys2Proof

/-- A three-register instruction: rd takes a function of ra and rb. -/
def alu3 (e rd ra rb : Nat) (s : State) (f : Word → Word → Word) : Out :=
  instr e [rd, ra, rb] s (fun s => s.putG e rd (f ((s.eng e).g ra) ((s.eng e).g rb)))

/-- A register and immediate instruction: rd takes a function of ra. -/
def alu2 (e rd ra : Nat) (s : State) (f : Word → Word) : Out :=
  instr e [rd, ra] s (fun s => s.putG e rd (f ((s.eng e).g ra)))

/-- 1 or 0 for a comparison. -/
def boolWord (b : Bool) : Word := if b then 1 else 0

/-- ADD: rd = ra + rb modulo 2^32 (R351). -/
def execAdd (e rd ra rb : Nat) (s : State) : Out := alu3 e rd ra rb s (fun a b => a + b)

/-- SUB: rd = ra - rb modulo 2^32 (R351). -/
def execSub (e rd ra rb : Nat) (s : State) : Out := alu3 e rd ra rb s (fun a b => a - b)

/-- ADDS: signed saturating sum (R351). -/
def execAdds (e rd ra rb : Nat) (s : State) : Out := alu3 e rd ra rb s (fun a b => sat32 (a.toInt + b.toInt))

/-- SUBS: signed saturating difference (R351). -/
def execSubs (e rd ra rb : Nat) (s : State) : Out := alu3 e rd ra rb s (fun a b => sat32 (a.toInt - b.toInt))

/-- AND: bitwise AND (R351). -/
def execAnd (e rd ra rb : Nat) (s : State) : Out := alu3 e rd ra rb s (fun a b => a &&& b)

/-- OR: bitwise OR (R351). -/
def execOr (e rd ra rb : Nat) (s : State) : Out := alu3 e rd ra rb s (fun a b => a ||| b)

/-- XOR: bitwise XOR (R351). -/
def execXor (e rd ra rb : Nat) (s : State) : Out := alu3 e rd ra rb s (fun a b => a ^^^ b)

/-- SLL: shift left by rb [4:0] (R351). -/
def execSll (e rd ra rb : Nat) (s : State) : Out := alu3 e rd ra rb s (fun a b => a <<< (b.toNat % 32))

/-- SRL: logical shift right by rb [4:0] (R351). -/
def execSrl (e rd ra rb : Nat) (s : State) : Out := alu3 e rd ra rb s (fun a b => a >>> (b.toNat % 32))

/-- SRA: arithmetic shift right by rb [4:0] (R351). -/
def execSra (e rd ra rb : Nat) (s : State) : Out := alu3 e rd ra rb s (fun a b => a.sshiftRight (b.toNat % 32))

/-- SLT: 1 if ra is below rb, signed (R351). -/
def execSlt (e rd ra rb : Nat) (s : State) : Out := alu3 e rd ra rb s (fun a b => boolWord (a.slt b))

/-- SLTU: 1 if ra is below rb, unsigned (R351). -/
def execSltu (e rd ra rb : Nat) (s : State) : Out := alu3 e rd ra rb s (fun a b => boolWord (a.ult b))

/-- MIN: signed minimum (R351). -/
def execMin (e rd ra rb : Nat) (s : State) : Out := alu3 e rd ra rb s (fun a b => if b.slt a then b else a)

/-- MAX: signed maximum (R351). -/
def execMax (e rd ra rb : Nat) (s : State) : Out := alu3 e rd ra rb s (fun a b => if a.slt b then b else a)

/-- MUL16: signed product of the low halves (R351). -/
def execMul16 (e rd ra rb : Nat) (s : State) : Out := alu3 e rd ra rb s (fun a b => BitVec.ofInt 32 (signedOf 16 a.toNat * signedOf 16 b.toNat))

/-- MUL16U: unsigned product of the low halves (R351). -/
def execMul16u (e rd ra rb : Nat) (s : State) : Out := alu3 e rd ra rb s (fun a b => w32 (a.toNat % 65536 * (b.toNat % 65536)))

/-- SLLI: shift left by the rb field (R351). -/
def execSlli (e rd ra rb : Nat) (s : State) : Out :=
  instr e [rd, ra, rb] s (fun s => s.putG e rd ((fun a : Word => a <<< rb) ((s.eng e).g ra)))

/-- SRLI: logical shift right by the rb field (R351). -/
def execSrli (e rd ra rb : Nat) (s : State) : Out :=
  instr e [rd, ra, rb] s (fun s => s.putG e rd ((fun a : Word => a >>> rb) ((s.eng e).g ra)))

/-- SRAI: arithmetic shift right by the rb field (R351). -/
def execSrai (e rd ra rb : Nat) (s : State) : Out :=
  instr e [rd, ra, rb] s (fun s => s.putG e rd ((fun a : Word => a.sshiftRight rb) ((s.eng e).g ra)))

/-- ADDI: rd = ra + simm (R351). -/
def execAddi (e rd ra : Nat) (imm : BitVec 16) (s : State) : Out := alu2 e rd ra s (fun a => a + imm.signExtend 32)

/-- SLTI: 1 if ra is below simm, signed (R351). -/
def execSlti (e rd ra : Nat) (imm : BitVec 16) (s : State) : Out := alu2 e rd ra s (fun a => boolWord (a.slt (imm.signExtend 32)))

/-- ANDI: bitwise AND with the zero-extended immediate (R351). -/
def execAndi (e rd ra : Nat) (imm : BitVec 16) (s : State) : Out := alu2 e rd ra s (fun a => a &&& imm.zeroExtend 32)

/-- ORI: bitwise OR with the zero-extended immediate (R351). -/
def execOri (e rd ra : Nat) (imm : BitVec 16) (s : State) : Out := alu2 e rd ra s (fun a => a ||| imm.zeroExtend 32)

/-- XORI: bitwise XOR with the zero-extended immediate (R351). -/
def execXori (e rd ra : Nat) (imm : BitVec 16) (s : State) : Out := alu2 e rd ra s (fun a => a ^^^ imm.zeroExtend 32)

/-- LUI: rd = imm16 << 16 (R351). -/
def execLui (e rd : Nat) (imm : BitVec 16) (s : State) : Out :=
  instr e [rd] s (fun s => s.putG e rd (imm.zeroExtend 32 <<< 16))

/-- CLS: leading bits equal to bit 31, less one (R359). -/
def execCls (e rd ra : Nat) (s : State) : Out := alu2 e rd ra s clsWord

/-- BEXP: rd = the smaller of rd and CLS of ra (R351, R359). -/
def execBexp (e rd ra : Nat) (s : State) : Out :=
  instr e [rd, ra] s (fun s =>
    let old := (s.eng e).g rd
    let c := clsWord ((s.eng e).g ra)
    s.putG e rd (if c.slt old then c else old))

end Sys2Proof.Machine
end

