-- ==== Sys2Proof/Machine/EngineDsp.lean ====
section
/-!
DEFINITION. The multiply-accumulate instructions of the engines (R357-R362).
-/
namespace Sys2Proof.Machine

open Sys2Proof

/-- An accumulating instruction on X and Y: the accumulator takes a function of itself and the product. -/
def macLike (e a x y su : Nat) (s : State) (f : Int → Int → Int) : Out :=
  instr e [x, y] s (fun s =>
    if 1 < a ∨ 3 < su then s.engineFault e 1 0
    else s.put e (fun z => z.putAcc a (f (z.acc a).toInt (product z.status su (z.g x) (z.g y)))))

/-- An instruction on one accumulator. -/
def accOp (e a : Nat) (regs : List Nat) (s : State) (f : Engine → Engine) : Out :=
  instr e regs s (fun s => if 1 < a then s.engineFault e 1 0 else s.put e f)

/-- MAC: acc[A] = acc[A] + P (R357). -/
def execMac (e a x y su : Nat) (s : State) : Out := macLike e a x y su s (fun acc p => acc + p)

/-- MSU: acc[A] = acc[A] - P (R357). -/
def execMsu (e a x y su : Nat) (s : State) : Out := macLike e a x y su s (fun acc p => acc - p)

/-- MPY: acc[A] = P (R357). -/
def execMpy (e a x y su : Nat) (s : State) : Out := macLike e a x y su s (fun _ p => p)

/-- The filter tap with and without the move (R360, R361): address faults, error faults, then one tap. -/
def tap (e a su : Nat) (move : Bool) (s : State) : Out :=
  instr e [] s (fun s =>
    let x := s.eng e
    let g0 := x.ctx.ag0
    let g1 := x.ctx.ag1
    let dst := g0.wrap (g0.ptr + 2)
    if 1 < a ∨ 3 < su then s.engineFault e 1 0
    else if g0.bad then s.engineFault e 2 g0.ptr
    else if g1.bad then s.engineFault e 2 g1.ptr
    else if s.spadBadAt e g0.ptr then s.engineFault e 8 g0.ptr
    else if s.spadBadAt e g1.ptr then s.engineFault e 8 g1.ptr
    else if move ∧ s.spadBadAt e dst then s.engineFault e 8 dst
    else
      let xv := s.spadRead e g0.ptr 2
      let p := product x.status su (w32 xv) (w32 (s.spadRead e g1.ptr 2))
      let s1 := (((s.noteAccess e g0.ptr false).noteAccess e g1.ptr false).spadMeet e g0.ptr).spadMeet e g1.ptr
      let s2 := if move then (((s1.noteAccess e dst true).noteCode e dst 2).spadWrite e dst 2 xv).modEng e (fun y => y.clearRes dst) else s1
      s2.put e (fun y => ((y.putAcc a ((y.acc a).toInt + p)).setAg 0 g0.next).setAg 1 g1.next))

/-- FTAP (R361). -/
def execFtap (e a su : Nat) (s : State) : Out := tap e a su true s

/-- FTAPN: FTAP without the move (R361). -/
def execFtapn (e a su : Nat) (s : State) : Out := tap e a su false s

/-- ACLR: acc[A] = 0. -/
def execAclr (e a : Nat) (s : State) : Out := accOp e a [] s (fun z => z.setAcc a 0)

/-- AFROM: acc[A] = X sign-extended. -/
def execAfrom (e a x : Nat) (s : State) : Out := accOp e a [x] s (fun z => z.setAcc a ((z.g x).signExtend 40))

/-- AADD: acc[A] = acc[A] + acc[1 - A] (R357). -/
def execAadd (e a : Nat) (s : State) : Out :=
  accOp e a [] s (fun z => z.putAcc a ((z.acc a).toInt + (z.acc (1 - a)).toInt))

/-- ASH: acc[A] shifted by SH, left when positive (R357). -/
def execAsh (e a : Nat) (sh : BitVec 5) (s : State) : Out :=
  accOp e a [] s (fun z => z.putAcc a (shiftExact (z.acc a).toInt sh.toInt))

/-- AEXP: X takes the shift that normalises acc[A] (R359). -/
def execAexp (e a x : Nat) (s : State) : Out := accOp e a [x] s (fun z => z.setG x (aexpWord (z.acc a)))

/-- AMOV: X takes acc[A] extracted (R358). -/
def execAmov (e a x : Nat) (sh : BitVec 5) (hi : Bool) (s : State) : Out :=
  accOp e a [x] s (fun z => z.setG x (amovWord z.status (z.acc a) sh hi))

end Sys2Proof.Machine
end

