-- ==== Sys2Proof/Machine/EngineFlow.lean ====
section
/-!
DEFINITION. The branches, jumps and repeats of the engines (R351, R363, R364).
-/
namespace Sys2Proof.Machine

open Sys2Proof

/-- The address off words from PC + 4. -/
def relTarget (pc : Nat) (off : Int) : Nat := (((pc + 4 : Nat) + 4 * off) % 2 ^ 32).toNat

/-- A branch: fault 0x6 as the last instruction of a body; taken, a jump within R364; else the next instruction. -/
def branch (e ra rb : Nat) (off : BitVec 16) (s : State) (cond : Word → Word → Bool) : Out :=
  instr e [ra, rb] s (fun s =>
    let x := s.eng e
    if x.atBodyEnd then s.engineFault e 6 0
    else if cond (x.g ra) (x.g rb) then s.setEng e (x.jumpTo (relTarget x.ctx.pc off.toInt))
    else s.put e id)

/-- A jump with its link register, if any. -/
def jump (e : Nat) (regs : List Nat) (s : State) (target : Engine → Nat) (link : Option Nat) : Out :=
  instr e regs s (fun s =>
    let x := s.eng e
    if x.atBodyEnd then s.engineFault e 6 0
    else
      let y := x.jumpTo (target x)
      s.setEng e (match link with | some r => y.setG r (w32 (x.ctx.pc + 4)) | none => y))

/-- BEQ: branch when ra is equal rb (R351). -/
def execBeq (e ra rb : Nat) (off : BitVec 16) (s : State) : Out := branch e ra rb off s (fun a b => a == b)

/-- BNE: branch when ra is not equal rb (R351). -/
def execBne (e ra rb : Nat) (off : BitVec 16) (s : State) : Out := branch e ra rb off s (fun a b => a != b)

/-- BLT: branch when ra is below, signed rb (R351). -/
def execBlt (e ra rb : Nat) (off : BitVec 16) (s : State) : Out := branch e ra rb off s (fun a b => a.slt b)

/-- BGE: branch when ra is not below, signed rb (R351). -/
def execBge (e ra rb : Nat) (off : BitVec 16) (s : State) : Out := branch e ra rb off s (fun a b => !a.slt b)

/-- BLTU: branch when ra is below, unsigned rb (R351). -/
def execBltu (e ra rb : Nat) (off : BitVec 16) (s : State) : Out := branch e ra rb off s (fun a b => a.ult b)

/-- BGEU: branch when ra is not below, unsigned rb (R351). -/
def execBgeu (e ra rb : Nat) (off : BitVec 16) (s : State) : Out := branch e ra rb off s (fun a b => !a.ult b)

/-- J: jump by a signed word offset (R351). -/
def execJ (e : Nat) (off : BitVec 26) (s : State) : Out :=
  jump e [] s (fun x => relTarget x.ctx.pc off.toInt) none

/-- JAL: jump, g31 = PC + 4 (R351). -/
def execJal (e : Nat) (off : BitVec 26) (s : State) : Out :=
  jump e [] s (fun x => relTarget x.ctx.pc off.toInt) (some 31)

/-- JR: jump to ra (R351). -/
def execJr (e ra : Nat) (s : State) : Out := jump e [ra] s (fun x => (x.g ra).toNat) none

/-- JALR: jump to ra, rd = PC + 4 (R351). -/
def execJalr (e rd ra : Nat) (s : State) : Out := jump e [rd, ra] s (fun x => (x.g ra).toNat) (some rd)

/-- RPT: push a repeat level over the next LEN instructions; a count of 0 skips them (R363, R364). -/
def execRpt (e : Nat) (useReg : Bool) (len count : Nat) (s : State) : Out :=
  instr e (if useReg then [count] else []) s (fun s =>
    let x := s.eng e
    let pc := x.ctx.pc
    let last := pc + 4 * len
    let n := if useReg then (x.g count).toNat % 65536 else count
    let past := (List.range 3).any (fun k =>
      decide (k < x.ctx.depth) && x.inBody k pc && decide ((x.level k).le.toNat < last))
    if len = 0 ∨ 2047 < len ∨ (!useReg ∧ 4095 < count) then s.engineFault e 1 0
    else if x.ctx.depth = 3 ∨ past ∨ x.atBodyEnd then s.engineFault e 6 0
    else if n = 0 then s.setEng e (x.loopBack last 3)
    else
      let y := x.setLevel x.ctx.depth { lc := w32 n, ls := w32 (pc + 4), le := w32 last }
      s.setEng e ({ y with ctx := { y.ctx with depth := x.ctx.depth + 1 } }.setPc (pc + 4)))

end Sys2Proof.Machine
end

