-- ==== Sys2Proof/Machine/EngineMem.lean ====
section
/-!
DEFINITION. The loads, stores and locked accesses of the engines (R349, R350, R365).
-/
namespace Sys2Proof.Machine

open Sys2Proof

/-- LDB: load a byte, sign-extended (R349, R350). -/
def execLdb (e rd ra : Nat) (imm : BitVec 16) (s : State) : Out :=
  instr e [rd, ra] s (fun s => s.load e rd ra imm 1 (fun v => BitVec.ofInt 32 (signedOf 8 v)))

/-- LDBU: load a byte, zero-extended (R349, R350). -/
def execLdbu (e rd ra : Nat) (imm : BitVec 16) (s : State) : Out :=
  instr e [rd, ra] s (fun s => s.load e rd ra imm 1 (w32))

/-- LDH: load a halfword, sign-extended (R349, R350). -/
def execLdh (e rd ra : Nat) (imm : BitVec 16) (s : State) : Out :=
  instr e [rd, ra] s (fun s => s.load e rd ra imm 2 (fun v => BitVec.ofInt 32 (signedOf 16 v)))

/-- LDHU: load a halfword, zero-extended (R349, R350). -/
def execLdhu (e rd ra : Nat) (imm : BitVec 16) (s : State) : Out :=
  instr e [rd, ra] s (fun s => s.load e rd ra imm 2 (w32))

/-- LDW: load a word of the scratchpad, or through the window by a READ (R349, R350). -/
def execLdw (e rd ra : Nat) (imm : BitVec 16) (s : State) : Out :=
  instr e [rd, ra] s (fun s => s.load e rd ra imm 4 (w32))

/-- LDD: an even rd and rd + 1 from 8 bytes; an odd rd is no instruction (R351). The lower address goes to rd. -/
def execLdd (e rd ra : Nat) (imm : BitVec 16) (s : State) : Out :=
  instr e [rd, ra] s (fun s =>
    let a := s.dataAddr e ra imm
    if rd % 2 = 1 then s.engineFault e 1 0
    else if State.inWindow a then s.engineFault e 2 a
    else if spadSize ≤ a then s.engineFault e 3 a
    else if a % 8 ≠ 0 then s.engineFault e 2 a
    else if s.spadBadAt e a then s.engineFault e 8 a
    else ((s.noteAccess e a false).spadMeet e a).put e (fun x =>
      (x.setG rd (w32 (s.spadRead e a 4))).setG (rd + 1) (w32 (s.spadRead e (a + 4) 4))))

/-- STB: store rd [7:0] (R349). -/
def execStb (e rd ra : Nat) (imm : BitVec 16) (s : State) : Out :=
  instr e [rd, ra] s (fun s => s.store e ra imm 1 ((s.eng e).g rd).toNat)

/-- STH: store rd [15:0] (R349). -/
def execSth (e rd ra : Nat) (imm : BitVec 16) (s : State) : Out :=
  instr e [rd, ra] s (fun s => s.store e ra imm 2 ((s.eng e).g rd).toNat)

/-- STW: store rd in the scratchpad, or through the window by a POSTED packet (R349, R350). -/
def execStw (e rd ra : Nat) (imm : BitVec 16) (s : State) : Out :=
  instr e [rd, ra] s (fun s => s.storeWord e rd ra imm false)

/-- STD: store the pair rd, rd + 1; an odd rd is no instruction (R351). -/
def execStd (e rd ra : Nat) (imm : BitVec 16) (s : State) : Out :=
  instr e [rd, ra] s (fun s =>
    if rd % 2 = 1 then s.engineFault e 1 0
    else s.store e ra imm 8 (((s.eng e).g rd).toNat * 2 ^ 32 + ((s.eng e).g (rd + 1)).toNat))

/-- STWS: STW that waits for DONE (R350). -/
def execStws (e rd ra : Nat) (imm : BitVec 16) (s : State) : Out :=
  instr e [rd, ra] s (fun s => s.storeWord e rd ra imm true)

/-- LL: load a word and set the reservation on its 8-byte granule (R365). -/
def execLl (e rd ra : Nat) (imm : BitVec 16) (s : State) : Out :=
  instr e [rd, ra] s (fun s =>
    let a := s.dataAddr e ra imm
    if spadSize ≤ a then s.engineFault e 5 a
    else if a % 4 ≠ 0 then s.engineFault e 2 a
    else if s.spadBadAt e a then s.engineFault e 8 a
    else ((s.noteAccess e a false).spadMeet e a).put e (fun x =>
      { x.setG rd (w32 (s.spadRead e a 4)) with reservation := some (a / 8) }))

/-- SC: store rd while the reservation covers the address; rd tells; the reservation clears (R365). -/
def execSc (e rd ra : Nat) (imm : BitVec 16) (s : State) : Out :=
  instr e [rd, ra] s (fun s =>
    let a := s.dataAddr e ra imm
    let v := (s.eng e).g rd
    if spadSize ≤ a then s.engineFault e 5 a
    else if a % 4 ≠ 0 then s.engineFault e 2 a
    else if (s.eng e).reservation ≠ some (a / 8) then s.put e (fun x => { x.setG rd 0 with reservation := none })
    else if s.spadBadAt e a then s.engineFault e 8 a
    else (((s.noteAccess e a true).noteCode e a 4).spadWrite e a 4 v.toNat).put e (fun x => { x.setG rd 1 with reservation := none }))

end Sys2Proof.Machine
end

