-- ==== Sys2Proof/Machine/EngineSys.lean ====
section
/-!
DEFINITION. The control and system instructions of the engines (R348, R366-R373), and the engine events.
-/
namespace Sys2Proof.Machine

open Sys2Proof

/-- MFC: rd = control register n; 40 latches the local time (R348). -/
def execMfc (e rd n : Nat) (s : State) : Out :=
  instr e [rd] s (fun s => (s.crLatch e n).putG e rd (s.crRead e n))

/-- MTC: control register n = ra, or fault 0x1 (R348). -/
def execMtc (e ra n : Nat) (s : State) : Out :=
  instr e [ra] s (fun s =>
    match s.crWrite e n ((s.eng e).g ra) with
    | some s1 => s1.put e id
    | none => s.engineFault e 1 0)

/-- RETI: the exchange reversed, STATUS restored, on at EPC; IDLE after a handler entered from IDLE (R368). -/
def execReti (e : Nat) (s : State) : Out :=
  instr e [] s (fun s =>
    let x := s.eng e
    if x.atBodyEnd then s.engineFault e 6 0
    else
      let y := (x.swapShadow.setStatus (x.estat &&& 0x3F)).setPc x.epc.toNat
      (s.setEng e { y with handler := false, fromIdle := false, st := if x.fromIdle then .idle else .run }).idleTake e)

/-- The thread's run is over: the next bank, or in a step MONITOR without a thread (R366, R535). -/
def State.runOver (s : State) (e : Nat) : State :=
  let s1 := s.modEng e (fun x => { x with reservation := none })
  if (s.eng e).dbg.stepping then s1.modEng e (fun x => { x with tvalid := false }) else s1.bankSwitch e

/-- TEXIT: the thread ends and the staged bank takes over (R366, R382). In handler code it is fault 0x1 (R370). -/
def execTexit (e : Nat) (s : State) : Out :=
  instr e [] s (fun s =>
    let x := s.eng e
    if x.handler then s.engineFault e 1 0
    else if x.atBodyEnd then s.engineFault e 6 0
    else
      let s1 := s.setEngStat e { s.engStat e with texits := min (2 ^ 32 - 1) ((s.engStat e).texits + 1) }
      (if x.tvalid then (s1.traceMake 1 e 0x02 (w32 x.thread) (w32 x.ctx.pc)).threadExit x.thread else s1).runOver e)

/-- YIELD: the context goes back to the dispatcher and the thread to its level's tail (R366, R387). -/
def execYield (e : Nat) (s : State) : Out :=
  instr e [] s (fun s =>
    let x := s.eng e
    let t := x.thread
    if x.handler then s.engineFault e 1 0
    else if x.atBodyEnd then s.engineFault e 6 0
    else if !x.tvalid ∨ !s.thCtxEn t then s.engineFault e 1 0
    else
      let s1 := (s.setEngStat e { s.engStat e with yields := min (2 ^ 32 - 1) ((s.engStat e).yields + 1) }).traceMake
        1 e 0x03 (w32 t) (w32 x.ctx.pc)
      if (s.thread t).st ≠ .running then (s1.threadExit t).runOver e
      else
        let s2 := { s1 with dsp := { s1.dsp with
          saves := Table.set (fun _ => {}) s1.dsp.saves t { x.ctx with pc := x.advance.ctx.pc } } }
        ((s2.modThread t (fun y => { y with saved := true, gone := false, writing := true })).joinTail t).runOver e)

/-- POST: thread ra [12:0] is posted; the engine waits for the decision (R367, R380). In handler code it is fault 0x1. -/
def execPost (e rd ra : Nat) (s : State) : Out :=
  instr e [rd, ra] s (fun s =>
    let x := s.eng e
    if x.handler then s.engineFault e 1 0
    else (s.presentPost (.engine e) ((x.g ra).toNat % 8192) (w32 (0x20000000 + e))).modEng e
      (fun y => { y with wait := some (.post rd) }))

/-- WDK: the engine watchdog reloads in full (R371). -/
def execWdk (e : Nat) (s : State) : Out := instr e [] s (fun s => (s.reloadWdog e).put e id)

/-- PUB: VALID cleared, or RESD0 to RESD5 published with ERR, SEQ + 1 and VALID (R373, R88). -/
def execPub (e flags : Nat) (s : State) : Out :=
  instr e [flags] s (fun s =>
    let a := aEng e + 0x100
    if flags % 2 = 0 then (s.setReg a (s.reg a &&& 0x7FFFFFFF)).put e id
    else
      let s1 := (List.range 6).foldl (fun (s : State) k =>
        s.setReg (a + 4 + 4 * k) (Table.get (fun _ => 0) (s.eng e).ctx.resd k)) s
      (s1.setReg a (resDone (s.reg a) (decide (flags / 2 % 2 = 1)))).put e id)

/-- FENCE: wait until every posted write of the engine has its PACK (R350). -/
def execFence (e : Nat) (s : State) : Out :=
  instr e [] s (fun s =>
    if s.postedOpen e then s.modEng e (fun x => { x with wait := some .fence }) else s.put e id)

/-- BRK: MONITOR in a session, else fault 0x9 (R372, R533, R370). -/
def execBrk (e : Nat) (s : State) : Out :=
  instr e [] s (fun s =>
    if s.attached e then (s.modEng e (fun x => x.setPc (x.ctx.pc + 4))).monitorEntry e 1 0
    else s.engineFault e 9 0)

/-! ### Events -/

/-- INTERRUPT_ENTRY: the lowest pending enabled input is taken at this boundary (R368). -/
def execInterruptEntry (e dt : Nat) (s : State) : Out :=
  unitEvent (decide (e < 64)) dt s (fun s => match s.irqInput e with | some i => s.takeIrq e i | none => s)

/-- ENGINE_WATCHDOG_EXPIRY: a running engine whose count is spent faults with cause 0x7, which ends an access it waits for;
an ENGINE_STOP that waited is answered then (R347, R371). -/
def execEngineWatchdogExpiry (e dt : Nat) (s : State) : Out :=
  unitEvent (decide (e < 64)) dt s (fun s =>
    if (s.eng e).st = .run ∧ s.rf (aEng e + 0x30) 15 0 ≠ 0 ∧ (s.eng e).wdog = 0 then (s.engineFault e 7 0).settle e
    else s)

/-- STAGING_DECISION: one pavilion's decision (R385). -/
def execStagingDecision (p dt : Nat) (s : State) : Out :=
  unitEvent (decide (p < 8)) dt s (fun s => if s.dspEn then s.stagePavilion p else s)

/-- CONTEXT_WRITEBACK_END: a yielded context is in its save area (R387). -/
def execContextWritebackEnd (t dt : Nat) (s : State) : Out :=
  unitEvent (decide (t < 8192)) dt s (fun s =>
    if (s.thread t).writing then
      let c := Table.get (fun _ => {}) s.dsp.saves t
      let s1 := s.saveCtx (s.thCtxEng t) (s.thSlot t) c
      ({ s1 with dsp := { s1.dsp with saves := Table.erase s1.dsp.saves t } }).modThread t (fun y => { y with writing := false })
    else s)

/-- AFFINITY_WAIT_EXPIRY: the thread's wait is over; R384 lets any engine of PMASK take it from now on. -/
def execAffinityWaitExpiry (t dt : Nat) (s : State) : Out := unitEvent (decide (t < 8192)) dt s id

/-- The intake order of a post (R379). -/
def postRank : PostSrc → Nat
  | .engine e => e
  | .queue q => 0x10000 + q
  | .channel c ev => 0x100000 + 4 * c + ev
  | .cistern i ev => 0x200000 + 4 * i + ev

/-- The post decided next. -/
def nextPost (ps : List Post) : Option Post :=
  ps.foldl (fun acc p => match acc with
    | none => some p
    | some q => if postRank p.src < postRank q.src then some p else some q) none

/-- The next waiting post is accepted, merged or refused, if this clock still decides one, and its source is told (R379-R381). -/
def State.decideNext (s : State) : State :=
  match nextPost s.dsp.intake with
  | none => s
  | some p =>
    if s.postRoom = 0 then s
    else
      let s0 := { s with dsp := { s.dsp with intake := s.dsp.intake.erase p } }
      let (ok, s1) := s0.noteDecided.decidePost p.thread p.info
      match p.src with
      | .engine e =>
        match (s1.eng e).wait with
        | some (.post rd) => s1.endWait e (fun x => x.setG rd (if ok then 1 else 0))
        | _ => s1
      | _ => s1

/-- The first n waiting posts are decided in the intake order. -/
def State.decideAll : Nat → State → State
  | 0, s => s
  | n + 1, s => State.decideAll n s.decideNext

/-- A DSP_POST write of this value waits in the Ridgeway port: the posts before it fill this clock, or another write waits (R379,
R380). A value that is no thread is refused at once. -/
def State.postHolds (s : State) (v : Word) : Bool :=
  decide (v.toNat < 8192) && (!s.dsp.held.isEmpty || decide (s.postRoom ≤ s.dsp.intake.length))

/-- A write to DSP_POST that finds room: the posts before it in the intake order are decided, then its own (R379-R381). -/
def State.dspPost (s : State) (v : Word) : WRes :=
  if v.toNat ≥ 8192 then (s, 0x02)
  else
    let (ok, s1) := (State.decideAll s.dsp.intake.length s).noteDecided.decidePost v.toNat 0x60000000
    (s1, if ok then 0 else 0x33)

end Sys2Proof.Machine
end

