-- ==== Sys2Proof/Machine/Fabric.lean ====
section
/-!
DEFINITION. The fabric and the pad ring: clock lines, pin stages, block memories, Spines, window ports (R276-R321).
-/
namespace Sys2Proof.Machine

open Sys2Proof

namespace State

/-- The image has window logic (TC_STAT.WIN). -/
def winLogic (s : State) (t : Nat) : Bool :=
  (s.terr t).configured && bit (Config.terraceInfo (s.terr t).config 0) 1

/-- The block memories of terrace t take the contents of a BRAM section; none is zeros. -/
def bramLoad (s : State) (t : Nat) (sec : List Word) : State :=
  State.modTerr { s with
    bram := Table.keep s.bram (fun k _ => decide (k / 32768 ≠ t))
    bramCodes := Table.keep s.bramCodes (fun k _ => decide (k / 32768 ≠ t)) } t (fun x => { x with bramSec := sec })

/-! ### Pins (R312-R320) -/

/-- The word that a pin's port will work with: an overlay's that waits for the bank clock, else the one in force (R320). -/
def pinNext (s : State) (p : Nat) : Word := match (s.pin p).next with | some (w, _) => w | none => (s.pin p).cfg

/-- CAIRN_VAL and CAIRN_OE take the hold state (R317). -/
def takeHold (s : State) (p : Nat) : State :=
  s.modPin p (fun x =>
    match holdDrive (s.pinNext p) with
    | some v => { x with cairnVal := v, cairnOe := true }
    | none => { x with cairnVal := false, cairnOe := false })

/-- IO_PIN_CFG of a pin. -/
def pinWord (s : State) (p : Nat) : Word :=
  let x := s.pin p
  if x.configured then
    (x.cfg &&& 0xFFFF1FFF) ||| flag 15 x.cairnOe ||| flag 14 x.cairnVal ||| flag 13 (decide (x.src ≠ 0))
  else 0

/-- VIO of a bank leaves the window of its declared class: the first clock out of it sets VIO_BAD and logs (R321). -/
def vioOut (s : State) (b : Nat) : State :=
  let x := s.bank b
  ((s.setBank b { x with ok := false, held := true, outAt := s.now }).setRb (aBank b) 30 true).logEvent 0x32 (bankId b) (w32 b) 0
    x.meas

/-- A supply is measured: the class, and the time it rose (R320, R321). -/
def vioMeas (s : State) (b meas : Nat) : State :=
  s.modBank b (fun x => { x with meas := meas, rose := if x.meas = 0 ∧ meas ≠ 0 then s.now else x.rose })

/-! ### Window ports (R305-R307) -/

/-- A request reaches the window port; the port presents one at a time, in arrival order. -/
def winAsk (s : State) (t : Nat) (r : WinRequest) : State :=
  s.modTerr t (fun x => { x with
    window := x.window ++ [r], windowSince := if x.window.isEmpty then s.now else x.windowSince })

/-- A request goes before the waiting ones and is presented now (R66). -/
def winNext (s : State) (t : Nat) (r : WinRequest) : State :=
  s.modTerr t (fun x => { x with window := r :: x.window, windowSince := s.now })

/-- The request presented is over; the next is presented now. -/
def winPop (s : State) (t : Nat) : State :=
  s.modTerr t (fun x => { x with window := x.window.drop 1, windowSince := s.now })

/-- The port takes a request: window logic in a started, powered and clocked terrace (R305, R339). -/
def winReady (s : State) (t : Nat) : Bool := s.terrUp t && (s.terr t).started && s.winLogic t

/-! ### Spines (R288) -/

/-- The contention bit of terrace t on a Spine. -/
def spineBit (s : State) (t n : Nat) : Bool := s.rb (aTerr t + 0x20 + 4 * (n / 32)) (n % 32)

/-- The enable of terrace t's driver on Spine n becomes 1 at an edge of its line: user logic asks for it (R286, R288). -/
def spineAsks (s : State) (t n : Nat) : Bool :=
  s.terrLive t && s.lineRuns t (s.lineOf t (.spine n)) &&
    (match Config.spineDriver (s.terr t).comb n with
      | some d => s.sourceBit t (Config.stage1 (s.terr t).comb d.2)
      | none => false)

/-- A terrace's driver on a Spine has its enable at 1. -/
def spineEnable (s : State) (t n : Nat) : State := s.modUser t (fun u => { u with spines := u.spines ||| BitVec.ofNat 128 (2 ^ n) })

/-! ### Block memories (R299-R303) -/

/-- Half-words of a word of block memory m (R299). -/
def bramHalves (s : State) (t m : Nat) : Nat := if Config.bramWide (s.terr t).config m then 2 else 1

/-- The line of a memory port runs (R299, R339). -/
def portRuns (s : State) (t : Nat) (p : BramPort) : Bool := s.lineRuns t (s.lineOf t (.bram (portNumber p)))

/-- User logic asks memory port p of terrace t for an access now: its enable is 1, its write strobe as given, its address bits
spell the address and, for a write, its data in the word (R299). -/
def portAsks (s : State) (t : Nat) (p : BramPort) (write : Bool) (addr : Nat) (data : List Word64) : Bool :=
  let n := portNumber p
  s.inputBit t (.memEnable n) && decide (s.inputBit t (.memStrobe n) = write) &&
    (List.range 10).all (fun k => decide (s.inputBit t (.memAddr n k) = addr.testBit k)) &&
    (List.range (64 * data.length)).all (fun k =>
      decide (s.inputBit t (.memData n k) = (data.getD (k / 64) 0).getLsbD (k % 64)))

/-- A half-word fails its code as it is stored: two of its bits are wrong (R299, R301). -/
def bramBroken (s : State) (t m h : Nat) : Bool := decide (Config.bramCode (s.bramWord t m h) ≠ s.bramCheck t m h)

/-- How the k-th half-word of the word at h reads: what befalls this read, or the error it is stored with (R301, R484). -/
def bramReads (s : State) (t m h : Nat) (got : List Upset) : List Upset :=
  got.zipIdx.map (fun e => if s.bramBroken t m (h + e.2) then .uncorrectable else e.1.seen)

/-- A memory port shows a word, CE and UE. -/
def portShows (s : State) (t : Nat) (p : BramPort) (q : List Word64) (ce ue : Bool) : State :=
  s.modUser t (fun u => u.setPort (portNumber p) { u.port (portNumber p) with q := q, ce := ce, ue := ue })

/-- A half-word takes a double-bit error: it holds from now on a word that the manual does not give, under the check bits of the
old one (R301). -/
def bramBreak (s : State) (t m h : Nat) : State :=
  { s with
    bramCodes := Table.set (fun k => Config.bramCode (s.bramDefault k)) s.bramCodes (bramKey t m h) (s.bramCheck t m h)
    bram := Table.set s.bramDefault s.bram (bramKey t m h) (Config.freeWord s.freeCtr ++ Config.freeWord (s.freeCtr + 1))
    freeCtr := s.freeCtr + 2 }

/-- The half-words of a word from h on that a read finds broken for the first time take their errors. -/
def bramTake (s : State) (t m h : Nat) (us : List Upset) : State :=
  us.zipIdx.foldl (fun (s : State) e =>
    if e.1 = .uncorrectable ∧ !s.bramBroken t m (h + e.2) then s.bramBreak t m (h + e.2) else s) s

/-- Drop a bay hold (R309). -/
def holdEnd (s : State) (t : Nat) : State := s.modTerr t (fun x => { x with heldBay := none })

end State

/-! ### Events -/

/-- SPINE_CONTENTION: at an edge of their lines the enables of the drivers named become 1, where user logic asks for it; with two or
more driving the Spine, these or others, none held off or in a terrace that is off or has not started, each of them is turned off
(R288, R289, R308). -/
def execSpineContention (r spine : Nat) (drivers : List Nat) (dt : Nat) (s : State) : Out :=
  unitEvent (decide (r < 4) && decide (spine < 128) && drivers.all (fun t => decide (t / 32 = r))) dt s (fun s =>
    let s1 := (drivers.eraseDups.filter (fun t => s.spineAsks t spine)).foldl (fun (s : State) t => s.spineEnable t spine) s
    let on := s1.spineOn r spine
    if 2 ≤ on.length then on.foldl (fun (s : State) t => s.spineOff t spine) s1 else s1)

/-- One outcome of a block memory read counted and logged (R301, R486). -/
def bramOutcome (t m addr : Nat) (s : State) (u : Upset) : State :=
  let d := w32 (m * 0x10000 + addr)
  match u with
  | .clean | .forged | .miscorrected => s
  | .corrected => (s.addCnt (aTerr t + 0x34) 1).logEvent 0x01 (terraceId t) d 0 0
  | .uncorrectable => (s.addCnt (aTerr t + 0x38) 1).logEvent 0x02 (terraceId t) d 0 0

/-- The CE and the UE of one read, each counted and logged once whatever the half-words (R301). -/
def bramTold (t m addr : Nat) (us : List Upset) (s : State) : State :=
  let s1 := if .corrected ∈ us then bramOutcome t m addr s .corrected else s
  if .uncorrectable ∈ us then bramOutcome t m addr s1 .uncorrectable else s1

/-- A destroying march holds the user ports of terrace t's block memories (R519, R522). -/
def marchesBram (s : State) (t : Nat) : Bool :=
  match s.bist.march with
  | some (sel, form) => decide (form = 0) && decide (fld sel 31 24 = 1) && (decide (fld sel 15 0 = t) || decide (fld sel 15 0 = 0xFFFF))
  | none => false

/-- BLOCK_MEMORY_READ: a port whose line runs, and which user logic asks for a read, reads a word; its data out, CE and UE show
the outcome until the line's next edge, nothing is written back, CE and UE count, each UE is logged (R299, R301, R302). -/
def execBlockMemoryRead (t : Nat) (port : BramPort) (addr : Nat) (got : List Upset) (dt : Nat) (s : State) : Out :=
  let m := port.mem
  unitEvent (decide (t < 128) && decide (m < 32) && decide (addr < 1024)) dt s (fun s =>
    let n := s.bramHalves t m
    if s.portRuns t port ∧ s.portAsks t port false addr [] ∧ got.length = n ∧ addr < 1024 / n then
      if marchesBram s t then s.portShows t port (List.replicate n 0) false false
      else
        let us := s.bramReads t m (addr * n) got
        let s1 := s.bramTake t m (addr * n) us
        let shown := (List.range n).map (fun k => s1.bramWord t m (addr * n + k))
        bramTold t m addr us (s1.portShows t port shown (decide (.corrected ∈ us)) (decide (.uncorrectable ∈ us)))
    else s)

/-- BLOCK_MEMORY_WRITE: a port whose line runs, and which user logic asks for the write, replaces a whole word with its check
bits; its data out shows the old word, as a read does (R300, R301, R303). `meet` is what the other port does there: on the same
line a read returns the old word and of two writes A's word is stored; on lines whose edges fall within 250 ps either whole
word. Writes are discarded during a destroying march (R522). -/
def execBlockMemoryWrite (t : Nat) (port : BramPort) (addr : Nat) (data : List Word64) (meet : BramMeet) (dt : Nat) (s : State) : Out :=
  let m := port.mem
  let twin : BramPort := { port with b := !port.b }
  unitEvent (decide (t < 128) && decide (m < 32) && decide (addr < 1024)) dt s (fun s =>
    let n := s.bramHalves t m
    let h := addr * n
    let old := (List.range n).map (fun k => s.bramWord t m (h + k))
    let us := s.bramReads t m h (List.replicate n .clean)
    let ue := decide (.uncorrectable ∈ us)
    let oneLine := decide (s.lineOf t (.bram (portNumber port)) = s.lineOf t (.bram (portNumber twin)))
    if s.portRuns t port ∧ s.portAsks t port true addr data ∧ data.length = n ∧ addr < 1024 / n then
      if marchesBram s t then s.portShows t port (List.replicate n 0) false false
      else
        let s1 := bramTold t m addr us (s.portShows t port old false ue)
        match meet with
        | .alone => s1.bramPut t m h data
        | .read new =>
          if s.portRuns t twin ∧ s.portAsks t twin false addr [] then
            let late := new && !oneLine
            let s2 := s1.portShows t twin (if late then data else old) false (ue && !late)
            (if late then s2 else bramTold t m addr us s2).bramPut t m h data
          else s1.bramPut t m h data
        | .write other mine =>
          if s.portRuns t twin ∧ s.portAsks t twin true addr other ∧ other.length = n then
            ((bramTold t m addr us (s1.portShows t twin old false ue)).bramPut t m h
              (if (if oneLine then !port.b else mine) then data else other)).addCnt (aTerr t + 0x3C) 1
          else s1.bramPut t m h data
    else s)

/-- CLOCK_LINE_ENABLE: user logic changes the enable of a user-gated line, which stops or starts on the second edge of its
source after it (R342). -/
def execClockLineEnable (t line : Nat) (on : Bool) (dt : Nat) (s : State) : Out :=
  unitEvent (decide (t < 128) && decide (line < 4)) dt s (fun s =>
    if s.terrUp t ∧ s.lineGated t line ∧ s.inputBit t (.lineEnable line) = on then
      s.modUser t (fun u => u.setGate line ((u.gate line).drive on))
    else s)

/-- REPAIR_HOLD_END: the bay of a repair resumes from its held state (R309); one held for a restore waits for it (R493). -/
def execRepairHoldEnd (t dt : Nat) (s : State) : Out :=
  unitEvent (decide (t < 128)) dt s (fun s => s.holdEnd t)

/-- DESERIALISER_SLIP: a word clock in which SLIP is 1 moves the word boundary one bit later (R316). -/
def execDeserialiserSlip (p dt : Nat) (s : State) : Out :=
  unitEvent (decide (p < 416)) dt s (fun s =>
    if (s.pin p).configured ∧ s.inputBit (pinTerr (s.pin p).cfg) (.slip p) then
      s.modPin p (fun x => { x with slips := x.slips + 1 })
    else s)

/-- VIO_OUT_OF_WINDOW: the bank's VIO leaves its window, with the class measured, in every mode (R320, R321). -/
def execVioOutOfWindow (b meas dt : Nat) (s : State) : Out :=
  supplyEvent (decide (b < 13) && decide (meas < 6)) dt s (fun s => s.vioMeas b meas) (fun s =>
    let s1 := s.vioMeas b meas
    if (s.bank b).decl = 0 then s1 else s1.vioOut b)

/-- VIO_RECOVERY: VIO has been in its window for 10 ms, or, sooner than 10 ms after it left, is in it again; 10 ms in the window
and VIO_BAD cleared return the pins to their stage (R321). -/
def execVioRecovery (b meas dt : Nat) (s : State) : Out :=
  supplyEvent (decide (b < 13) && decide (meas < 6)) dt s (fun s => s.vioMeas b meas) (fun s =>
    let s1 := s.vioMeas b meas
    let x := s1.bank b
    let ok := decide (x.decl ≠ 0) && decide (meas = x.decl)
    let free := if x.ok then x.until_ else if x.outAt + 10 ^ 10 ≤ s.now then s.now else s.now + 10 ^ 10
    s1.setBank b { x with ok := ok, until_ := free })

end Sys2Proof.Machine
end

