-- ==== Sys2Proof/Machine/Clocks.lean ====
section
/-!
DEFINITION. Crystal inputs, PLLs and gates (R322-R341): stability, references, consistency tests, LOCK.
-/
namespace Sys2Proof.Machine

open Sys2Proof

/-- CK_STAT and the event register. -/
def aCk : Nat := 0x20000
def aCkEvent : Nat := 0x20018
namespace State

def xtal (s : State) (x : Nat) : Crystal := if x = 0 then s.clk.xa else s.clk.xb
def setXtal (s : State) (x : Nat) (v : Crystal) : State :=
  { s with clk := if x = 0 then { s.clk with xa := v } else { s.clk with xb := v } }
def xEn (s : State) (x : Nat) : Bool := s.rb (aX x) 31
def xStable (s : State) (x : Nat) : Bool := (s.xtal x).stable
def ckPpm (s : State) : Nat := s.rf 0x20010 15 0

/-- The other named input of an enabled PLL (R332). -/
def pllOther (s : State) (p : Nat) : Nat := if (s.pll p).onAlt then s.pllRef p else s.pllAlt p

/-- A reference is stable: FOSC always, a crystal input when judged so, none never. -/
def refStable (s : State) (r : Nat) : Bool := if r < 2 then s.xStable r else decide (r = 2)

/-! ### Loss and return of an input (R325, R332, R333) -/

/-- One PLL that runs on input x, or pulls towards it, meets its loss: it moves to its other input while that one is
stable, or freezes. -/
def pllLoses (s : State) (p x : Nat) : State :=
  let u := s.pll p
  if u.running ∧ s.pllOn p = x then
    if s.refStable (s.pllOther p) then
      (s.setPll p { u with onAlt := !u.onAlt }).setRb aCkEvent 2 true
    else (s.setPll p { u with frozen := true }).setRb aCkEvent 3 true
  else s

/-- Stability of input x is lost in this clock. -/
def inputLost (s : State) (x : Nat) : State :=
  let s1 := s.setXtal x { s.xtal x with stable := false, counts := [] }
  let s2 := { s1 with clk := { s1.clk with diff := none } }
  let s3 := (s2.setRb aCkEvent x true).logEvent 0x30 0x0002 (w32 x) 0 0
  (List.range 16).foldl (fun (s : State) p => s.pllLoses p x) s3

/-- A crystal input was judged stable in an earlier clock. -/
def stableSooner (s : State) (r : Nat) : Bool := decide (r < 2) && s.xStable r && decide ((s.xtal r).stableAt < s.now)

/-- A frozen PLL resumes tracking input x, judged stable in this clock, unless it tracks the other already; REF goes before
ALT in one clock. -/
def pllResumes (s : State) (p x : Nat) : State :=
  let u := s.pll p
  if u.running ∧ u.frozen then
    if s.pllRef p = x then (if s.stableSooner (s.pllAlt p) then s else s.setPll p { u with onAlt := false })
    else if s.pllAlt p = x ∧ !s.refStable (s.pllRef p) then s.setPll p { u with onAlt := true }
    else s
  else s

/-- Input x is judged stable in this clock. -/
def inputStable (s : State) (x sum : Nat) : State :=
  let s1 := s.setXtal x { s.xtal x with stable := true, counts := [], sum8 := sum, stableAt := s.now, spoilt := false }
  (List.range 16).foldl (fun (s : State) p => s.pllResumes p x) s1

/-- Eight windows agree with their mean and the declared frequency (R324). -/
def windowsAgree (s : State) (x : Nat) (ws : List Nat) : Bool :=
  let sum := ws.foldl (· + ·) 0
  let want := s.xFreq x * 2 ^ 20 * 8
  let got := sum * 200000
  let off := if got < want then want - got else got - want
  decide (ws.length = 8) && decide (off * 100 ≤ want * 4) &&
  ws.all (fun c => decide ((if 8 * c < sum then sum - 8 * c else 8 * c - sum) * 1000000 ≤ s.ckPpm * sum))

/-! ### Consistency tests of the inputs and PLLs (R324, R330) -/

/-- The test of a crystal input's enable, on the word as written. -/
def xtalCheck (x : Nat) (v : Word) : Byte × Nat :=
  let f := fld v 19 0
  let ok := if bit v 30 then decide (10000 ≤ f) && decide (f ≤ 156250) else decide (25000 ≤ f) && decide (f ≤ 54000)
  firstFail [(decide (fld v 29 28 = 3) || !ok, 0x02, 8 + 4 * x)]

/-- The fastest fabric clock of the speed grade in kHz (R295). -/
def fabricLimit : Nat := if Config.devStep.toNat / 16 % 16 = 2 then 1000000 else 850000

/-- Output limits of PLL p in kHz; none where R329 or R328 settles them. -/
def pllLimits (p : Nat) : Option (Nat × Nat) :=
  if p < 8 then some (7800, fabricLimit) else if p < 12 then none
  else if p < 14 then some (200000, 1200000) else some (400000, 1500000)

/-- An output divider is in range and its output within its limits; a lane PLL's within 1 ppm of 156.25 MHz (R329). -/
def divOk (p fref n f d : Nat) : Bool :=
  match pllLimits p with
  | some (lo, hi) => decide (d = 0) || (decide (d ≠ 1) &&
      decide (lo * 1000 ≤ outHz fref n f d) && decide (outHz fref n f d ≤ hi * 1000))
  | none =>
    let got := fref * 1000 * (n * 2 ^ 24 + f) * 1000000
    let want := 156250000 * 2 ^ 24 * d * 1000000
    decide (2 ≤ d) && decide ((if got < want then want - got else got - want) ≤ 156250000 * 2 ^ 24 * d)

/-- The PLL consistency tests on CK_PLL_CTRL as written, with the offset in the PLL's own range (R92, R330, R456). -/
def pllCheck (s : State) (p : Nat) (v : Word) : Byte × Nat :=
  let ref := fld v 3 2
  let alt := fld v 5 4
  if p = 15 then firstFail [(decide (2 ≤ ref) || decide (alt = 2) || decide (alt = ref), 0x02, 0), (!s.refStable ref, 0x10, 0)]
  else
    let n := s.rf (aPll p + 0xC) 31 24
    let f := s.rf (aPll p + 0xC) 23 0
    let fref := s.refFreq ref
    let vco := fref * (n * 2 ^ 24 + f)
    let foscOk := decide (p < 8) || decide (p = 14)
    let outs := if p < 8 then 4 else 1
    firstFail [
      (decide (ref = 3) || decide (alt = 2) || (decide (ref = 2) && !foscOk) || decide (alt = ref), 0x02, 0),
      (decide (n < 16) || decide (vco < 2000000 * 2 ^ 24) || decide (6000000 * 2 ^ 24 < vco), 0x02, 0xC),
      ((List.range outs).any (fun k => !divOk p fref n f (s.rf (aPll p + 0x10) (8 * k + 7) (8 * k))), 0x02, 0x10),
      (foscOk && decide (8 < s.rf (aPll p + 0x14) 3 0), 0x02, 0x14),
      (!s.refStable ref, 0x10, 0)]

/-- Consumers of a PLL's outputs that still run (R331); an output that is off clocks nothing (R327). -/
def pllUsed (s : State) (p : Nat) : Bool :=
  if p < 8 then
    let r := p / 2
    let mine := fun n => decide (n / 4 = p % 2) && decide (n < 8) && s.pllOut p (n % 4)
    (List.range 32).any (fun k => (List.range 4).any (fun l =>
      match s.lineSource (32 * r + k) l with | some n => mine n && s.lineRuns (32 * r + k) l | none => false)) ||
    (List.range 13).any (fun b => decide (bankRidge b = r) && (mine (s.bank b).src0 || mine (s.bank b).src1))
  else if p < 12 then
    (List.range 36).any (fun k =>
      s.chEn (36 * (p - 8) + k) || decide ((s.lane (36 * (p - 8) + k)).st = .loop))
  else if p < 14 then (List.range 8).any (fun k => s.gateOpen (dramId (8 * (p - 12) + k)))
  else if p = 14 then (List.range 8).any (fun v => s.gateOpen (pavilionId v))
  else true

/-- Start a PLL whose check has passed. -/
def pllStart (s : State) (p : Nat) : State :=
  s.setPll p { s.pll p with running := true, lock := false, frozen := false, onAlt := false, ssc := s.reg (aPll p + 0x14), sscAt := 0 }

/-- CK_PLL_SSC of an enabled PLL is about to change: the setting in force holds until the next lowest point of the modulation, whose
period is 33.4 us at most (R335). -/
def sscHold (s : State) (p : Nat) : State :=
  s.setPll p { s.pll p with ssc := s.pllSpread p, sscAt := s.now + min (Config.lowestPoint p s.now) 33400000 }

/-- Start the system PLL on an input; its REF stays fixed (R456). -/
def spllStart (s : State) (x : Nat) : State :=
  let s1 := s.setReg (aPll 15) (putBit (putFld (s.reg (aPll 15)) 3 2 x) 0 true)
  { s1.pllStart 15 with clk := { (s1.pllStart 15).clk with spllStarted := true, startDue := none } }

/-- CK_XA_CFG and CK_XB_CFG from an image header, an input already enabled left alone (R456). A word that sets EN runs the check as
a register write does, and is discarded when it fails (R91). -/
def xtalFromHeader (s : State) (x : Nat) (v : Word) : State :=
  if s.xEn x ∨ s.clk.spllStarted then s
  else
    let w := (s.reg (aX x) &&& ~~~(0xF00FFFFF : Word)) ||| (v &&& 0xF00FFFFF)
    let c := xtalCheck x v
    let s1 := if bit v 31 then s.recordCheck (aCk + 4) c.1 c.2 else s
    if bit v 31 ∧ c.1 ≠ 0 then s1 else (s1.setReg (aX x) w).setXtal x {}

/-- A PLL locks; from the system PLL's first lock the frame reference inputs are watched and the ADCs convert (R578, R544). -/
def pllLocks (s : State) (p : Nat) : State :=
  let s1 := s.modPll p (fun u => { u with lock := true })
  if p = 15 then { s1 with tb := { s1.tb with watched := true }, mon := s1.mon.start s1.now } else s1

end State

open State

/-! ### Events -/

/-- CRYSTAL_WINDOW_END: the count of one window judged (R324, R325). -/
def execCrystalWindowEnd (x count dt : Nat) (s : State) : Out :=
  unitEvent (decide (x < 2)) dt s (fun s =>
    if !s.xEn x then s
    else
      let c := s.xtal x
      if c.stable then
        let off := (if 8 * count < c.sum8 then c.sum8 - 8 * count else 8 * count - c.sum8) * 1000000
        if s.ckPpm * c.sum8 < off then s.inputLost x else s
      else if c.spoilt then s.setXtal x { c with spoilt := false }
      else
        let ws := (c.counts ++ [count]).drop (c.counts.length + 1 - 8)
        if s.windowsAgree x ws then s.inputStable x (ws.foldl (· + ·) 0)
        else s.setXtal x { c with counts := ws })

/-- EDGE_LOSS: no edge for 1 µs on a stable input; it is judged again from the next window (R325). -/
def execEdgeLoss (x dt : Nat) (s : State) : Out :=
  unitEvent (decide (x < 2)) dt s (fun s =>
    if s.xEn x ∧ s.xStable x then (s.inputLost x).setXtal x { (s.inputLost x).xtal x with spoilt := true } else s)

/-- FROZEN_CLEAR: a frozen PLL has reached the frequency of its restored input (R333). -/
def execFrozenClear (p dt : Nat) (s : State) : Out :=
  unitEvent (decide (p < 16)) dt s (fun s =>
    if (s.pll p).frozen ∧ s.refStable (s.pllOn p) then s.modPll p (fun u => { u with frozen := false }) else s)

/-- XAB_DIFF_WINDOW_END: a window of 2^28 XA cycles held `edges` XB edges; the offset against the declared
frequencies in ppb, rounded as the manual leaves open (R326). -/
def execXabDiffWindowEnd (edges : Nat) (dt : Nat) (s : State) : Out :=
  event dt s (fun s =>
    if s.xStable 0 ∧ s.xStable 1 then
      let want : Int := 2 ^ 28 * s.xFreq 1
      let got : Int := edges * s.xFreq 0
      { s with clk := { s.clk with diff := some (Config.roundQuot ((got - want) * 1000000000) (2 ^ 28 * s.xFreq 1)) } }
    else s)

/-- PLL_LOCK: a started or relocking PLL locks (R330, R334); from the system PLL's first lock the frame reference inputs
are watched (R578). -/
def execPllLock (p dt : Nat) (s : State) : Out :=
  unitEvent (decide (p < 16)) dt s (fun s =>
    if (s.pll p).running then s.pllLocks p else s)

/-- SYSTEM_PLL_START: after a CPORT base commit the system PLL starts once SYSREF is stable; at 500 ms the start is
given up and logged (R456). -/
def execSystemPllStart (dt : Nat) (s : State) : Out :=
  event dt s (fun s =>
    match s.clk.startDue with
    | none => s
    | some (x, due) =>
      if s.clk.spllStarted then { s with clk := { s.clk with startDue := none } }
      else if s.xStable x ∧ (s.xtal x).stableAt ≤ due then s.spllStart x
      else if due ≤ s.now then
        ({ s with clk := { s.clk with startDue := none } } : State).logEvent 0x4A 0x0002 1 0 2
      else s)

end Sys2Proof.Machine
end

