-- ==== Sys2Proof/Machine/Crypto.lean ====
section
/-!
DEFINITION. The published algorithms the manual names: AES-256 with RFC 3394 unwrapping, GCM, CMAC and XTS
(R420-R432), SHA-384, HMAC-SHA-384 and ECDSA over P-384 (R449, R512). Their text is PRESUMED from the standards (log
entry 7). Bytes are natural numbers below 256, most significant byte first where a number is meant.
-/
namespace Sys2Proof.Crypto

open Sys2Proof

/-! ### AES-256 -/

/-- Doubling in the field of AES. -/
def xtime (a : Nat) : Nat := if 128 ≤ a then (2 * a % 256) ^^^ 0x1B else 2 * a

/-- Multiplication in the field of AES. -/
def gmul (a b : Nat) : Nat :=
  ((List.range 8).foldl (fun (st : Nat × Nat) i =>
    (if b.testBit i then st.1 ^^^ st.2 else st.1, xtime st.2)) (0, a)).1

/-- The field inverse, a to the power 254. -/
def ginv (a : Nat) : Nat :=
  ((List.range 7).foldl (fun (st : Nat × Nat) _ => (gmul st.1 (gmul st.2 st.2), gmul st.2 st.2)) (1, a)).1

/-- Rotate a byte left. -/
def rotl8 (a n : Nat) : Nat := (a * 2 ^ n) % 256 ||| (a / 2 ^ (8 - n))

/-- The S-box and its inverse. -/
def sbox (a : Nat) : Nat :=
  let b := ginv a
  b ^^^ rotl8 b 1 ^^^ rotl8 b 2 ^^^ rotl8 b 3 ^^^ rotl8 b 4 ^^^ 0x63
def invSbox (a : Nat) : Nat := ginv (rotl8 a 1 ^^^ rotl8 a 3 ^^^ rotl8 a 6 ^^^ 0x05)

/-- Byte lists combined by exclusive or, to the shorter. -/
def xorBytes (a b : List Nat) : List Nat := List.zipWith (· ^^^ ·) a b

/-- The 60 words of the AES-256 key schedule, oldest last. -/
def expandAux : Nat → Nat → Nat → List (List Nat) → List (List Nat)
  | 0, _, _, ws => ws
  | n + 1, i, rcon, ws =>
    let prev := ws.headD []
    let back := ws.getD 7 []
    let t := if i % 8 = 0 then
        match (prev.drop 1 ++ prev.take 1).map sbox with
        | b :: bs => (b ^^^ rcon) :: bs
        | [] => []
      else if i % 8 = 4 then prev.map sbox else prev
    expandAux n (i + 1) (if i % 8 = 0 then xtime rcon else rcon) (xorBytes back t :: ws)

/-- The fifteen round keys of a 32-byte key. -/
def roundKeys (key : List Nat) : List (List Nat) :=
  (chunks 4 (expandAux 52 8 1 (chunks 4 key).reverse).reverse).map List.flatten

/-- Rotation of row r of the column-ordered state by r (negative for the inverse). -/
def shiftRows (inv : Bool) (s : List Nat) : List Nat :=
  (List.range 16).map (fun i =>
    let c := i / 4
    let r := i % 4
    s.getD (4 * ((if inv then c + 4 - r else c + r) % 4) + r) 0)

/-- One column times the circulant matrix of a first row. -/
def mixColumn (m col : List Nat) : List Nat :=
  (List.range 4).map (fun r =>
    (List.range 4).foldl (fun acc k => acc ^^^ gmul (m.getD ((k + 4 - r) % 4) 0) (col.getD k 0)) 0)

def mixColumns (m s : List Nat) : List Nat := (chunks 4 s).flatMap (mixColumn m)

/-- AES-256 encryption of a 16-byte block under round keys. -/
def encWith (rks : List (List Nat)) (block : List Nat) : List Nat :=
  let s0 := xorBytes block (rks.getD 0 [])
  let s1 := (List.range 13).foldl (fun s i =>
    xorBytes (mixColumns [2, 3, 1, 1] (shiftRows false (s.map sbox))) (rks.getD (i + 1) [])) s0
  xorBytes (shiftRows false (s1.map sbox)) (rks.getD 14 [])

/-- AES-256 decryption of a 16-byte block under round keys. -/
def decWith (rks : List (List Nat)) (block : List Nat) : List Nat :=
  let s0 := xorBytes block (rks.getD 14 [])
  let s1 := (List.range 13).foldl (fun s i =>
    mixColumns [14, 11, 13, 9] (xorBytes ((shiftRows true s).map invSbox) (rks.getD (13 - i) []))) s0
  xorBytes ((shiftRows true s1).map invSbox) (rks.getD 0 [])

def aesEnc (key block : List Nat) : List Nat := encWith (roundKeys key) block
def aesDec (key block : List Nat) : List Nat := decWith (roundKeys key) block

/-! ### Number and byte forms -/

/-- A number from bytes, most significant first. -/
def beNum (bs : List Nat) : Nat := bs.foldl (fun a b => a * 256 + b) 0

/-- The n low bytes of a number, most significant first. -/
def beBytes (n v : Nat) : List Nat := (List.range n).map (fun i => v / 256 ^ (n - 1 - i) % 256)

/-- The n low bytes of a number, least significant first. -/
def leBytes (n v : Nat) : List Nat := (List.range n).map (fun i => v / 256 ^ i % 256)

def ofBytes (bs : List Byte) : List Nat := bs.map (·.toNat)
def toBytes (bs : List Nat) : List Byte := bs.map (BitVec.ofNat 8)

/-! ### RFC 3394 unwrapping -/

/-- One step of the unwrapping: registers A and R[1..4], step t from 24 down to 1. -/
def unwrapStep (rks : List (List Nat)) (st : List Nat × List (List Nat)) (t : Nat) : List Nat × List (List Nat) :=
  let i := (t - 1) % 4
  let b := decWith rks (xorBytes st.1 (beBytes 8 t) ++ st.2.getD i [])
  (b.take 8, st.2.set i (b.drop 8))

/-- Unwrap 40 bytes to a 32-byte key; none when the integrity check fails. -/
def unwrap (kek wrapped : List Nat) : Option (List Nat) :=
  let rks := roundKeys kek
  match chunks 8 wrapped with
  | a :: rs =>
    let out := ((List.range 24).map (fun k => 24 - k)).foldl (unwrapStep rks) (a, rs)
    if out.1 = List.replicate 8 0xA6 then some out.2.flatten else none
  | [] => none

/-- The key check value: first four bytes of the encryption of a zero block (R421). -/
def keyCheck (key : List Nat) : Nat := beNum ((aesEnc key (List.replicate 16 0)).take 4)

/-! ### Counter mode and GCM (SP 800-38D) -/

/-- Multiplication in the field of GHASH, bits numbered from the most significant of 128. -/
def ghMul (x y : Nat) : Nat :=
  ((List.range 128).foldl (fun (st : Nat × Nat) i =>
    (if x.testBit (127 - i) then st.1 ^^^ st.2 else st.1,
     if st.2 % 2 = 1 then (st.2 / 2) ^^^ (0xE1 * 2 ^ 120) else st.2 / 2)) (0, y)).1

/-- Pad to whole 16-byte blocks with zeros. -/
def pad16 (bs : List Nat) : List Nat := bs ++ List.replicate ((16 - bs.length % 16) % 16) 0

def ghash (h : Nat) (bs : List Nat) : Nat :=
  (chunks 16 bs).foldl (fun acc b => ghMul (acc ^^^ beNum b) h) 0

/-- The key stream applied to a text, from a counter block value. -/
def ctrApply (rks : List (List Nat)) (iv : List Nat) (first : Nat) (bs : List Nat) : List Nat :=
  let bl := chunks 16 bs
  ((List.range bl.length).map (fun i => xorBytes (bl.getD i []) (encWith rks (iv ++ beBytes 4 (first + i))))).flatten

/-- GCM encryption with a 96-bit vector: ciphertext and the 16-byte tag. -/
def gcmTag (rks : List (List Nat)) (iv aad cipher : List Nat) : List Nat :=
  let h := beNum (encWith rks (List.replicate 16 0))
  let len := beBytes 8 (8 * aad.length) ++ beBytes 8 (8 * cipher.length)
  let g := ghash h (pad16 aad ++ pad16 cipher ++ len)
  xorBytes (beBytes 16 g) (encWith rks (iv ++ beBytes 4 1))

def gcmEnc (key iv aad plain : List Nat) : List Nat × List Nat :=
  let rks := roundKeys key
  let c := ctrApply rks iv 2 plain
  (c, gcmTag rks iv aad c)

def gcmDec (key iv aad cipher : List Nat) : List Nat × List Nat :=
  let rks := roundKeys key
  (ctrApply rks iv 2 cipher, gcmTag rks iv aad cipher)

/-! ### CMAC (SP 800-38B) and XTS (IEEE 1619) -/

/-- Doubling of a subkey. -/
def cmacDouble (x : Nat) : Nat := (2 * x % 2 ^ 128) ^^^ (if 2 ^ 127 ≤ x then 0x87 else 0)

/-- CMAC of a message of whole blocks, at least one (the manual's message is 80 bytes). -/
def cmac (key msg : List Nat) : List Nat :=
  let rks := roundKeys key
  let k1 := cmacDouble (beNum (encWith rks (List.replicate 16 0)))
  let bl := chunks 16 msg
  let last := bl.length - 1
  (List.range bl.length).foldl (fun acc i =>
    let b := xorBytes acc (bl.getD i [])
    encWith rks (if i = last then xorBytes b (beBytes 16 k1) else b)) (List.replicate 16 0)

/-- Multiplication of the XTS tweak by alpha, little-endian. -/
def xtsDouble (x : Nat) : Nat := (2 * x % 2 ^ 128) ^^^ (if 2 ^ 127 ≤ x then 0x87 else 0)

def leNum (bs : List Nat) : Nat := beNum bs.reverse

/-- XTS-AES-256 over whole blocks. -/
def xts (dec : Bool) (dataKey tweakKey : List Nat) (tweak : Nat) (bs : List Nat) : List Nat :=
  let dks := roundKeys dataKey
  let t0 := leNum (aesEnc tweakKey (leBytes 16 tweak))
  ((chunks 16 bs).foldl (fun (st : List Nat × Nat) b =>
    let t := leBytes 16 st.2
    let x := xorBytes b t
    (st.1 ++ xorBytes (if dec then decWith dks x else encWith dks x) t, xtsDouble st.2)) ([], t0)).1

/-! ### SHA-384 and HMAC -/

/-- The first n odd-or-two primes by trial division, over fuel. -/
def primesAux : Nat → Nat → List Nat → List Nat
  | 0, _, ps => ps
  | n + 1, k, ps => primesAux n (k + 1) (if ps.any (fun p => decide (k % p = 0)) then ps else ps ++ [k])

def primes80 : List Nat := primesAux 408 2 []

/-- The greatest x below 2^n with f x at most v, by bisection. -/
def bisect (f : Nat → Nat) (v : Nat) : Nat → Nat → Nat
  | 0, x => x
  | n + 1, x => if f (x + 2 ^ n) ≤ v then bisect f v n (x + 2 ^ n) else bisect f v n x

/-- Fraction bits of the cube root and the square root of a number. -/
def cbrtFrac (p : Nat) : Nat := bisect (fun x => x * x * x) (p * 2 ^ 192) 70 0 % 2 ^ 64
def sqrtFrac (p : Nat) : Nat := bisect (fun x => x * x) (p * 2 ^ 128) 70 0 % 2 ^ 64

def shaK : List Nat := primes80.map cbrtFrac
def shaInit : List Nat := ((primes80.drop 8).take 8).map sqrtFrac

def rotr64 (x n : Nat) : Nat := x / 2 ^ n ||| (x * 2 ^ (64 - n)) % 2 ^ 64

/-- The 80 message words, newest first. -/
def shaSched : Nat → List Nat → List Nat
  | 0, ws => ws
  | n + 1, ws =>
    let a := ws.getD 1 0
    let b := ws.getD 14 0
    let s1 := rotr64 a 19 ^^^ rotr64 a 61 ^^^ (a / 2 ^ 6)
    let s0 := rotr64 b 1 ^^^ rotr64 b 8 ^^^ (b / 2 ^ 7)
    shaSched n ((s1 + ws.getD 6 0 + s0 + ws.getD 15 0) % 2 ^ 64 :: ws)

/-- One round of the compression. -/
def shaRound (st : List Nat) (kw : Nat) : List Nat :=
  match st with
  | [a, b, c, d, e, f, g, h] =>
    let t1 := h + (rotr64 e 14 ^^^ rotr64 e 18 ^^^ rotr64 e 41) + ((e &&& f) ^^^ ((2 ^ 64 - 1 - e) &&& g)) + kw
    let t2 := (rotr64 a 28 ^^^ rotr64 a 34 ^^^ rotr64 a 39) + ((a &&& b) ^^^ (a &&& c) ^^^ (b &&& c))
    [(t1 + t2) % 2 ^ 64, a, b, c, (d + t1) % 2 ^ 64, e, f, g]
  | _ => st

def shaBlock (ks : List Nat) (h : List Nat) (block : List Nat) : List Nat :=
  let ws := (shaSched 64 ((chunks 8 block).map beNum).reverse).reverse
  let out := (List.zipWith (· + ·) ks ws).foldl shaRound h
  List.zipWith (fun a b => (a + b) % 2 ^ 64) h out

/-- SHA-384 of bytes: 48 bytes. -/
def sha384 (bs : List Nat) : List Nat :=
  let l := bs.length
  let padded := bs ++ [0x80] ++ List.replicate ((111 + 128 - l % 128) % 128) 0 ++ beBytes 16 (8 * l)
  (((chunks 128 padded).foldl (shaBlock shaK) shaInit).flatMap (beBytes 8)).take 48

/-- HMAC-SHA-384 under a key of at most 128 bytes. -/
def hmac384 (key msg : List Nat) : List Nat :=
  let k := key ++ List.replicate (128 - key.length) 0
  sha384 (k.map (· ^^^ 0x5C) ++ sha384 (k.map (· ^^^ 0x36) ++ msg))

/-! ### ECDSA over P-384 -/

def pP : Nat := 2 ^ 384 - 2 ^ 128 - 2 ^ 96 + 2 ^ 32 - 1
def pN : Nat := 0xFFFFFFFFFFFFFFFFFFFFFFFFFFFFFFFFFFFFFFFFFFFFFFFFC7634D81F4372DDF581A0DB248B0A77AECEC196ACCC52973
def pB : Nat := 0xB3312FA7E23EE7E4988E056BE3F82D19181D9C6EFE8141120314088F5013875AC656398D8A2ED19D2A85C8EDD3EC2AEF
def pG : Nat × Nat :=
  (0xAA87CA22BE8B05378EB1C71EF320AD746E1D3B628BA79B9859F741E082542A385502F25DBF55296C3A545E3872760AB7,
   0x3617DE4A96262C6F5D9E98BF9292DC29F8F41DBD289A147CE9DA3113B5F0B8C00A60B1CE1D7E819D7A431D7C90EA0E5F)

/-- Power modulo m over n bits of the exponent. -/
def powMod (m b e : Nat) : Nat → Nat → Nat
  | 0, acc => acc
  | n + 1, acc => powMod m b e n (let q := acc * acc % m; if e.testBit n then q * b % m else q)

def invMod (m a : Nat) : Nat := powMod m (a % m) (m - 2) 384 1

/-- Addition of affine points; none is the point at infinity. -/
def ecAdd (a b : Option (Nat × Nat)) : Option (Nat × Nat) :=
  match a, b with
  | none, b => b
  | a, none => a
  | some (x1, y1), some (x2, y2) =>
    if x1 = x2 ∧ (y1 + y2) % pP = 0 then none
    else
      let l := if x1 = x2 then (3 * x1 * x1 + (pP - 3)) % pP * invMod pP (2 * y1) % pP
        else (y2 + pP - y1) % pP * invMod pP ((x2 + pP - x1) % pP) % pP
      let x3 := (l * l + 2 * pP - x1 - x2) % pP
      some (x3, (l * ((x1 + pP - x3) % pP) + pP - y1) % pP)

/-- Multiplication of a point over n bits. -/
def ecMul (k : Nat) (p : Option (Nat × Nat)) : Nat → Option (Nat × Nat) → Option (Nat × Nat)
  | 0, acc => acc
  | n + 1, acc => ecMul k p n (let d := ecAdd acc acc; if k.testBit n then ecAdd d p else d)

/-- The point lies on the curve. -/
def onCurve (x y : Nat) : Bool :=
  decide (x < pP) && decide (y < pP) && decide (y * y % pP = (x * x * x + (pP - 3) * x + pB) % pP)

/-- A signature (r, s) over a 48-byte digest verifies under a public key. -/
def ecdsaVerify (qx qy r s : Nat) (digest : List Nat) : Bool :=
  if !onCurve qx qy ∨ r = 0 ∨ pN ≤ r ∨ s = 0 ∨ pN ≤ s then false
  else
    let w := invMod pN s
    let z := beNum digest
    match ecAdd (ecMul (z * w % pN) (some pG) 384 none) (ecMul (r * w % pN) (some (qx, qy)) 384 none) with
    | none => false
    | some (x, _) => decide (x % pN = r)

end Sys2Proof.Crypto
end

