-- ==== Sys2Proof/Machine/Cairns.lean ====
section
/-!
DEFINITION. The Cairns: event records, misses, targets, arming (R124-R137, R469).
-/
namespace Sys2Proof.Machine

open Sys2Proof

namespace State

/-! ### Event records (R137) -/

/-- Write an event record, or count it lost. -/
def pushRecord (s : State) (r : EventRecord) : State :=
  if s.events.length < 64 then { s with events := s.events ++ [r] } else s.addCnt 0x3007C 1

/-- The record of Cairn k with position words. -/
def recordOf (k : Nat) (c : Cairn) (fired partial_ : Bool) (cause : Byte) : EventRecord :=
  { w0 := flag 31 true ||| flag 30 fired ||| flag 29 partial_ ||| at_ 16 cause.toNat ||| w32 k, w1 := c.sf, w2 := c.fp }

/-! ### Misses (R133) -/

/-- What a miss of Cairn k leaves at once: its record, the count, the trace. -/
def cairnTold (s : State) (k : Nat) (cause : Byte) : State :=
  let r := recordOf k (s.cairn k) false false cause
  (((s.pushRecord r).addCnt 0x30084 1).traceStop 4).traceMake 3 k 0x21 r.w0 r.w1

/-- Cairn k misses at its position: its binding ends and its slot frees or goes on in the next clock (R132, R480). -/
def cairnMiss (s : State) (k : Nat) (cause : Byte) : State := (s.cairnTold k cause).endsNext k (some cause)

/-- n positions of a Cairn passed over by one step of Frame Position: the first 64 one by one, the others, whose records
find the queue full, at once. -/
def cairnPassed (s : State) (k n : Nat) : State :=
  let s1 := (List.range (min n 64)).foldl (fun (s : State) _ => (s.cairnTold k 0x21).cairnEnds k (some 0x21)) s
  let r := n - 64
  if r = 0 then s1 else ((s1.addCnt 0x3007C r).addCnt 0x30084 r).modCairn k (Cairn.after r)

/-- Frame Position is stepped to a new value; Cairns whose positions it passes over miss (R133, R135). -/
def stepPosition (s : State) (fp acc : Nat) : State :=
  let old := s.tb.fp
  let s1 := { s with tb := { s.tb with fp := fp % fpModulus, fpAcc := acc } }
  s.cairns.foldl (fun (s : State) e => s.cairnPassed e.1 (e.2.passed old (fp % fpModulus))) s1

/-! ### Lock groups (R193) -/

def chGroup (s : State) (c : Nat) : Nat := s.rf (aCh c + 0xC) 7 0
def chRole (s : State) (c : Nat) : Nat := s.rf (aCh c + 0xC) 31 30

/-- Members of lock group g, enabled or not. -/
def members (s : State) (g : Nat) : List Nat :=
  if g = 0xFF then [] else (List.range 144).filter (fun c => decide (s.chGroup c = g) && decide (s.chRole c = 0))

/-- The spare of lock group g. -/
def groupSpare (s : State) (g : Nat) : Option Nat :=
  if g = 0xFF then none
  else (List.range 144).find? (fun c => decide (s.chGroup c = g) && decide (s.chRole c = 1))

/-! ### Targets (R124, R125, R127, R194) -/

/-- The unit an ENABLE Cairn is armed at, from the target block ID. -/
def enableUnit (id : Nat) : Nat := if 0x1C00 ≤ id ∧ id < 0x2000 then terraceId (id - cisId 144) else id

/-- The banks of a list of pins. -/
def banksOf (ps : List Nat) : List Nat := (List.range 13).filter (fun b => ps.any (fun p => decide (p / 32 = b)))

/-- The channels a LAUNCH names: the members of its group, or the single channel. -/
def launchAt (s : State) (arg : Nat) : List Nat :=
  let g := arg / 2 ^ 16 % 256
  if g = 0xFF then [arg / 256 % 256] else s.members g

/-- The target units of Cairn k by block ID; none for an unbound PLANE or CAPTURE. The waiting spare of a lock group is a
target of its LAUNCH (R194), also for the tests of fenced and off domains (DESIGN CHOICE, log entry 63). -/
def targets (s : State) (k : Nat) : List Nat :=
  let c := s.cairn k
  let a := c.arg
  match c.kind with
  | 1 =>
    let g := a / 2 ^ 16 % 256
    (s.launchAt a).map chanId ++
      (if g = 0xFF then [] else match s.groupSpare g with | some x => [chanId x] | none => [])
  | 2 =>
    match s.ovl.image with
    | some i =>
      if c.bound then i.terrs.map terraceId ++ (banksOf i.pins).map bankId ++ i.chans.map chanId else []
    | none => []
  | 3 => [bankId (a / 2 ^ 15 % 512 / 32)]
  | 4 => [terraceId (a / 2 ^ 16 % 128)]
  | 5 => [monitorId]
  | 6 => [dispatcherId]
  | 7 => [enableUnit (a % 2 ^ 16)]
  | 8 => if c.bound then s.cap.targets.map terraceId else []
  | _ => []

/-- Places of armed Cairns at a target unit (R127). -/
def places (u : Nat) : Nat := if u = dispatcherId then 64 else 16

/-- Cairns armed at a target unit. -/
def armedAt (s : State) (u : Nat) : Nat := Table.count s.cairns (fun _ c => decide (u ∈ c.armed))

/-- Within 2 ms and within 100 µs of its position, or past it (R127). -/
def armDue (s : State) (k : Nat) : Bool := reached (s.tb.fp + stepsOfNs 2000000) (s.cairn k).pos
def commitDue (s : State) (k : Nat) : Bool := reached (s.tb.fp + stepsOfNs 100000) (s.cairn k).pos

/-- Cairn j waits for a place at target u and goes before Cairn k there: earlier position, then lower index (R127). -/
def armsBefore (s : State) (j k u : Nat) : Bool :=
  let a := s.cairn j
  let b := s.cairn k
  decide (j ≠ k) && !a.free && !a.armedAll && !a.committed && (!a.binds || a.bound) && s.armDue j &&
  decide (u ∈ s.targets j) && !decide (u ∈ a.armed) &&
  (if a.pos = b.pos then decide (j < k) else reached b.pos a.pos)

/-- Cairn k may take a place at target u now. -/
def armsAt (s : State) (k u : Nat) : Bool :=
  decide (s.armedAt u < places u) && !s.cairns.any (fun e => s.armsBefore e.1 k u)

/-- Arm Cairn k at every target with a free place that no earlier one waits for; armed everywhere sets `armedAll`. -/
def arm (s : State) (k : Nat) : State :=
  let ts := s.targets k
  let ok := ts.filter (fun u => decide (u ∈ (s.cairn k).armed) || s.armsAt k u)
  s.modCairn k (fun c => { c with armed := ok, armedAll := decide (ok.length = ts.length) && (!c.binds || c.bound) })

end State

open State

/-! ### Events -/

/-- CAIRN_ARM: 2 ms before its position, or when a place frees, a Cairn is armed at its targets (R127). -/
def execCairnArm (k dt : Nat) (s : State) : Out :=
  unitEvent (decide (k < 4096)) dt s (fun s =>
    let c := s.cairn k
    if s.tbOn ∧ !c.free ∧ !c.committed ∧ !c.armedAll ∧ (!c.binds ∨ c.bound) ∧ s.armDue k then s.arm k
    else s)

/-- CAIRN_COMMIT: 100 µs before its position a Cairn is committed; one that is not armed at every target, or still
unbound, then misses at the position (R127, R132, R133). -/
def execCairnCommit (k dt : Nat) (s : State) : Out :=
  unitEvent (decide (k < 4096)) dt s (fun s =>
    let c := s.cairn k
    if s.tbOn ∧ !c.free ∧ !c.committed ∧ s.commitDue k then s.modCairn k (fun c => { c with committed := true }) else s)

end Sys2Proof.Machine
end

