-- ==== Sys2Proof/Machine/Cisterns.lean ====
section
/-!
DEFINITION. The Cisterns (R204-R219): frames held in order, the words a consumer sees, drop, flush, forced reset and
the register windows.
-/
namespace Sys2Proof.Machine

open Sys2Proof

namespace State

/-! ### Settings -/

def cisSink (s : State) (i : Nat) : Nat := s.rf (aCis i) 11 10
def cisCut (s : State) (i : Nat) : Nat := s.rf (aCis i + 8) 15 0
def cisStall (s : State) (i : Nat) : Nat := s.rf (aCis i + 8) 23 16
/-- The terrace of the fabric read port (Producers and consumers). -/
def cisTerr (s : State) (i : Nat) : Nat := if i < 144 then s.rf (aCis i) 22 16 else i - 144

/-- The gate over a Cistern is open: its quad's, or its terrace's (R336, R339). -/
def cisClocked (s : State) (i : Nat) : Bool := s.gateOpen (if i < 144 then quadId (i / 4) else terraceId (i - 144))

/-- The write port of general Cistern i carries a word of bytes, of a width in bytes, the first on top (R207). -/
def cisWrites (s : State) (i width : Nat) (bytes : List Byte) (eof : Bool) : Bool :=
  s.inputBit (i - 144) (.hard .wrValid) && decide (s.inputBit (i - 144) (.hard .wrEof) = eof) &&
    s.hardSpells (i - 144) .wrBytes 4 (bytes.length % width) &&
    s.hardSpells (i - 144) (fun k => .wrData (8 * (width - bytes.length) + k)) (8 * bytes.length) (beNat bytes)

/-- Visible lines (CIS_STAT). -/
def cisVisible (s : State) (i : Nat) : Nat :=
  ((s.cis i).frames.map (fun f =>
    if f.shown then
      let n := if f.closed then f.bytes.length else f.words (s.cisOutB i) (s.cisByWindow i) * s.cisOutB i
      cdiv n 32 - f.taken / 32
    else 0)).foldl (· + ·) 0

/-- The head word is removed. -/
def cisPop (s : State) (i : Nat) : State :=
  let x := s.cis i
  if x.abortOwed then s.setCis i { x with abortOwed := false }
  else if !s.cisReady i then s
  else match x.frames with
    | [] => s
    | f :: rest =>
      let b := s.cisOutB i
      if f.closed ∧ f.taken / b + 1 = f.words b (s.cisByWindow i) then s.setCis i { x with frames := rest }
      else s.setCis i { x with frames := { f with taken := f.taken + b, begun := true } :: rest }

/-- The consumer reads n lines from the head of Cistern i: an error in them is corrected, which the stored line keeps, or ends the
head frame with ABORT (R218, R486). An open frame so ended skips what its producer still sends. CIS_CNT_ABORT counts an open frame so ended, and not
a closed one (DESIGN CHOICE, log entry 39). -/
def cisMeet (s : State) (i n : Nat) : State :=
  match (s.cis i).frames with
  | [] => s
  | f :: rest =>
    let hit := f.weak.filter (fun e => decide (f.taken / 32 ≤ e.1 ∧ e.1 < f.taken / 32 + n))
    if hit = [] ∨ (s.cis i).abortOwed ∨ !s.cisReady i then s
    else
      let lost := hit.any (fun e => decide (e.2 = .uncorrectable))
      let f1 := { f with weak := f.weak.filter (fun e => !decide (e ∈ hit ∧ e.2 = .uncorrectable)) }
      let f2 := if lost then { f1 with abort := true, shown := true, closed := true } else f1
      let s1 := s.modCis i (fun x => { x with
        frames := f2 :: rest, skipping := x.skipping || (lost && !f.closed) })
      let s2 := hit.foldl (fun (s : State) e =>
        s.logEvent (if e.2 = .uncorrectable then 0x02 else 0x01) (cisId i) 0 0 0) s1
      if lost ∧ !f.closed then (s2.addCnt (aCis i + 0x80) 1).addCnt (aCis i + 0x88) 1 else s2

/-- The line that the head word is read from holds an uncorrectable error (R488). -/
def cisHeadBad (s : State) (i : Nat) : Bool :=
  match (s.cis i).frames with
  | [] => false
  | f :: _ => !(s.cis i).abortOwed && s.cisReady i &&
    f.weak.any (fun e => decide (e.1 = f.taken / 32) && decide (e.2 = .uncorrectable))

/-- A read of CIS_RD_TAG: the tag, with the head word's data latched into CIS_RD_D0 to D7 (R210). -/
def cisRead (s0 : State) (i : Nat) : Word × State :=
  let s := s0.cisMeet i 1
  let (tag, ds) := s.cisHead i
  let s1 := s.cisPop i
  (tag, { s1 with latch := Table.setList (fun _ => 0) s1.latch ((aCis i + 0x44) / 4) ds })

/-- The words that CIS_RD_D0 to D7 hold. -/
def cisLatched (s : State) (i : Nat) : List Word :=
  (List.range 8).map (fun k => Table.get (fun _ => 0) s.latch ((aCis i + 0x44) / 4 + k))

end State

/-- The answer to a READ of CIS_RD_TAG: the tag; to one that wants payload flits also the data words behind it, and zeros
(log entry 77). -/
def tagAnswer (p : RwPkt) (tag : Word) (ds : List Word) : RwPkt :=
  let n := p.reason.toNat % 64
  State.answerTo p .rdata 0 tag (if n = 0 then [] else tag :: ds ++ List.replicate (8 * n - 5) 0)

namespace State

/-- Reads held for STALL are answered while words are visible, oldest first (R215). -/
def cisServe (i : Nat) : Nat → State → State
  | 0, s => s
  | n + 1, s =>
    match (s.cis i).held with
    | [] => s
    | h :: hs =>
      if s.cisReady i ∨ (s.cis i).abortOwed then
        let (tag, s1) := s.cisRead i
        cisServe i n ((s1.setCis i { s1.cis i with held := hs }).rwAnswerWith h.pkt (tagAnswer h.pkt tag (s1.cisLatched i)))
      else s

/-- After a change: the event of a frame that became visible while none was, then the held reads (R378, R215). -/
def cisSettle (s : State) (i : Nat) (was : Bool) : State :=
  let now := (s.cis i).frames.any (fun f => f.shown)
  let s1 := if now ∧ !was then s.cisternEvent i 0 else s
  cisServe i (s1.cis i).held.length s1

def cisShown (s : State) (i : Nat) : Bool := (s.cis i).frames.any (fun f => f.shown)

/-! ### Writing (R207, R208, R211-R213) -/

/-- The open frame, if any: the last one. -/
def cisOpen (s : State) (i : Nat) : Option CisFrame :=
  match (s.cis i).frames.getLast? with
  | some f => if f.closed then none else some f
  | none => none

/-- A receive Cistern takes a raw word: a line is free, or the last one is not full (R206). -/
def cisRawRoom (s : State) (i : Nat) : Bool :=
  s.cisRoom i || (match s.cisOpen i with | some f => decide (f.bytes.length % 32 ≠ 0) | none => false)

/-- Replace the last frame. -/
def cisPutLast (s : State) (i : Nat) (f : CisFrame) : State :=
  s.modCis i (fun x => { x with frames := x.frames.dropLast ++ [f] })

/-- The head frame, whose EOF has been written, is gone and counts dropped (R216). -/
def cisHeadGone (s : State) (i : Nat) : State :=
  (s.modCis i (fun x => { x with frames := x.frames.drop 1, dropping := false })).addCnt (aCis i + 0x8C) 1

/-- DROP is set: a closed head frame goes at once, the rest of an open one as it comes. -/
def cisDrop (s : State) (i : Nat) : State :=
  match (s.cis i).frames with
  | [] => s
  | f :: rest =>
    if f.closed then s.cisHeadGone i
    else
      (s.setCis i { s.cis i with frames := { f with bytes := [], taken := 0, begun := true, weak := [] } :: rest, dropping := true }).setRb
        (aCis i + 0x10) 0 true

/-- DROP is over with the EOF of the frame it dropped (R216); set again in this clock, it acts on the next (R82). -/
def cisDropped (s : State) (i : Nat) : State :=
  let s1 := (s.cisHeadGone i).clearBit (aCis i + 0x10) 0
  if s.reAsked (aCis i + 0x10) 0 then s1.cisDrop i else s1

/-- The open frame ends, whole or with ABORT. A frame not yet visible that fails is withdrawn (R212); one that DROP is
dropping closes and is dropped, whether it fails or not (DESIGN CHOICE, log entry 39). -/
def cisClose (s : State) (i : Nat) (abort : Bool) : State :=
  match s.cisOpen i with
  | none => s
  | some f =>
    if abort ∧ !f.shown ∧ !(s.cis i).dropping then s.modCis i (fun x => { x with frames := x.frames.dropLast })
    else
      let s1 := (s.cisPutLast i { f with
        closed := true, abort := abort, shown := true, len := if f.shown then f.len else f.bytes.length }).addCnt
          (aCis i + 0x80) 1
      let s2 := if abort then s1.addCnt (aCis i + 0x88) 1 else s1
      if (s2.cis i).dropping ∧ (s2.cis i).frames.length = 1 then s2.cisDropped i else s2

/-- Bytes join the open frame or open one; visible by CUT, or because a general Cistern is full (R211, R213). -/
def cisAppend (s : State) (i : Nat) (bs : List Byte) (len : Nat) : State :=
  let x := s.cis i
  let (f, frames) := match s.cisOpen i with
    | some f => (f, x.frames.dropLast)
    | none => (({ len := len } : CisFrame), x.frames)
  if x.dropping ∧ frames.isEmpty then s
  else
    let f1 := { f with bytes := f.bytes ++ bs }
    let byCut := decide (s.cisCut i ≠ 0 ∧ s.cisCut i ≤ f1.bytes.length)
    let forced := decide (144 ≤ i) && !f1.shown && !byCut && decide (cisLines i ≤ f1.lines)
    let s1 := s.setCis i { x with frames := frames ++ [{ f1 with shown := f1.shown || byCut || forced }] }
    if forced then s1.addCnt (aCis i + 0x90) 1 else s1

/-- A word of a producer of a general Cistern: appended, and the frame closed with EOF; skipped up to the end of a frame
cut off by a reset or FLUSH (R217, R218). -/
def cisProduce (s : State) (i : Nat) (bs : List Byte) (eof : Bool) : State :=
  let was := s.cisShown i
  if (s.cis i).resetting then (s.addCnt (aCis i + 0x94) 1).modCis i (fun x => { x with skipping := !eof })
  else if (s.cis i).skipping then s.modCis i (fun x => { x with skipping := !eof })
  else
    let s1 := s.cisAppend i bs 0
    (if eof then s1.cisClose i false else s1).cisSettle i was

/-- Bytes of a channel frame of length `len` that CIn has admitted, its first ones opening it; during a reset they are
discarded and counted lost word by word, and what is left of a frame that a reset or FLUSH cut off is skipped (R206, R217,
R218). -/
def cisFeed (s : State) (i : Nat) (bs : List Byte) (len : Nat) : State :=
  if (s.cis i).resetting then s.addCnt (aCis i + 0x94) (cdiv bs.length 8)
  else if (s.cis i).skipping then s
  else
    let was := s.cisShown i
    (s.cisAppend i bs len).cisSettle i was

/-- The end of a channel frame in CIn, good or failed (R212). -/
def cisEnd (s : State) (i : Nat) (good : Bool) : State :=
  if (s.cis i).resetting ∨ (s.cis i).skipping then s.modCis i (fun x => { x with skipping := false })
  else
    let was := s.cisShown i
    (s.cisClose i (!good)).cisSettle i was

/-- The frame channel c is receiving ends as a failed frame in this clock (R212). -/
def rxAbort (s : State) (c : Nat) : State :=
  match (s.chan c).rx with
  | none => s
  | some r =>
    let s1 := s.modChan c (fun x => { x with rx := none, lastEnd := s.now })
    if r.admitted then s1.cisEnd c false else s1

/-- The words of a raw channel end when it is disabled: what is not read yet ends with EOF, so that a later frame starts a
new line and a new word (R208; DESIGN CHOICE, log entry 69). -/
def cisRawEnd (s : State) (i : Nat) : State :=
  match s.cisOpen i with
  | none => s.modCis i (fun x => { x with skipping := false })
  | some f =>
    if (s.cis i).dropping ∧ (s.cis i).frames.length = 1 then s.cisDropped i
    else if f.taken < f.bytes.length then s.cisEnd i true
    else s.modCis i (fun x => { x with frames := x.frames.dropLast })

/-! ### DROP, FLUSH, forced reset (R216-R218) -/

/-- Discard every frame; each counts lost, but one that DROP is dropping counts dropped when FLUSH discards it (R216-R218).
An open frame is skipped to its end. -/
def cisEmpty (s : State) (i : Nat) (flush : Bool) : State :=
  let x := s.cis i
  let opened := (s.cisOpen i).isSome
  let kept := x.dropping && flush
  let s1 := s.addCnt (aCis i + 0x94) (x.frames.length - (if kept then 1 else 0))
  let s2 := if x.dropping then
    (if kept then s1.addCnt (aCis i + 0x8C) 1 else s1).clearBit (aCis i + 0x10) 0 else s1
  s2.setCis i { x with frames := [], dropping := false, skipping := x.skipping || opened }

/-- FLUSH is set: the contents go, and FLUSH stays set until FLUSH_DONE. -/
def cisFlush (s : State) (i : Nat) : State :=
  ((s.cisEmpty i true).modCis i (fun x => { x with flushing := true })).setRb (aCis i + 0x10) 1 true

/-- A write to CIS_CMD. -/
def cisCmdWrite (s : State) (i : Nat) (v : Word) : State :=
  let s1 := if bit v 0 ∧ !(s.cis i).dropping then s.cisDrop i else s
  if bit v 1 then s1.cisFlush i else s1

/-! ### The write window (R210) -/

/-- A write to CIS_WR_DATA; during a FLUSH the bytes are discarded, uncounted (DESIGN CHOICE, log entry 39). -/
def cisWrData (s : State) (i : Nat) (v : Word) : WRes :=
  if !s.cisByWindow i then (s, 0x09)
  else if !s.cisEn i then (s, 0x07)
  else if !s.cisRoom i then (s, 0x30)
  else if (s.cis i).flushing then (s, 0)
  else (s.cisProduce i (wordBytes v) false, 0)

/-- A write to CIS_WR_END; it closes the open frame of a Cistern that has been disabled too (DESIGN CHOICE, log entry 39). -/
def cisWrEnd (s : State) (i : Nat) (v : Word) : WRes :=
  if !s.cisByWindow i then (s, 0x09)
  else if (s.cis i).resetting ∨ (s.cis i).skipping then (s.modCis i (fun x => { x with skipping := false }), 0)
  else match s.cisOpen i with
    | none => (s, 0)
    | some f =>
      let was := s.cisShown i
      let n := fld v 1 0
      let f1 := if n = 0 then f else { f with bytes := f.bytes.take (f.bytes.length - (4 - n)) }
      (((s.cisPutLast i f1).cisClose i false).cisSettle i was, 0)

/-- The frame that holds stored line k of a Cistern, counted from the oldest: its place, and the line's place in it. -/
def cisLineAt : List CisFrame → Nat → Nat → Option (Nat × Nat)
  | [], _, _ => none
  | f :: rest, j, k => if k < f.lines then some (j, f.taken / 32 + k) else cisLineAt rest (j + 1) (k - f.lines)

/-- An uncorrectable error in a stored line ends that line's frame at the consumer with ABORT (R218); the words of a closed
frame that are left come before its EOF word, which carries the ABORT (DESIGN CHOICE, log entry 39). -/
def cisLineBad (s : State) (i line : Nat) : State :=
  match cisLineAt (s.cis i).frames 0 line with
  | none => s
  | some (j, _) =>
    match (s.cis i).frames[j]? with
    | none => s
    | some f =>
      if f.closed then s.modCis i (fun x => { x with
        frames := x.frames.modify j (fun f => { f with abort := true, shown := true }) })
      else
        let was := s.cisShown i
        (((s.cisPutLast i { f with shown := true }).cisClose i true).modCis i
          (fun x => { x with skipping := true })).cisSettle i was

/-- A stored line takes an error that nothing has met yet. -/
def cisLineWeak (s : State) (i line : Nat) (u : Upset) : State :=
  match cisLineAt (s.cis i).frames 0 line with
  | none => s
  | some (j, k) => s.modCis i (fun x => { x with frames := x.frames.modify j (fun f => { f with weak := f.weak ++ [(k, u)] }) })

end State

open State

/-! ### Events -/

/-- FLUSH_DONE: the flush completes (R217); one that software asks for in this clock is a new one (R82). -/
def execFlushDone (i dt : Nat) (s : State) : Out :=
  unitEvent (decide (i < 272)) dt s (fun s =>
    if !(s.cis i).flushing then s
    else if bit (s.askedNow (aCis i + 0x10)) 1 then s.cisFlush i
    else (s.modCis i (fun x => { x with flushing := false })).clearBit (aCis i + 0x10) 1)

/-- CISTERN_FABRIC_WRITE: user logic writes a word of IN_W bytes, which the wires of the write port carry, taken while the port is
clocked and ready (R207, R281, R290). -/
def execCisternFabricWrite (i : Nat) (bytes : List Byte) (eof : Bool) (dt : Nat) (s : State) : Out :=
  unitEvent (decide (144 ≤ i ∧ i < 272)) dt s (fun s =>
    let inB := if s.rf (aCis i) 7 6 = 0 then 4 else 8
    if s.portClocked (i - 144) 0 ∧ s.cisEn i ∧ !s.cisByWindow i ∧ !(s.cis i).flushing ∧ !(s.cis i).resetting ∧ s.cisRoom i ∧
        0 < bytes.length ∧ bytes.length ≤ inB ∧ (bytes.length = inB ∨ eof) ∧ s.cisWrites i inB bytes eof then
      s.cisProduce i bytes eof
    else s)

/-- CISTERN_FABRIC_READ: user logic takes a visible word, by the wire of its read port (R215, R281). -/
def execCisternFabricRead (i dt : Nat) (s : State) : Out :=
  unitEvent (decide (i < 272)) dt s (fun s => 
    if s.cisSink i = 1 ∧ s.portClocked (s.cisTerr i) 1 ∧ !s.pathCut (portOf (.cistern i)) (terracePort (s.cisTerr i)) ∧
        s.cisClocked i ∧ s.inputBit (s.cisTerr i) (.hard (.rdTake i)) then
      (s.cisMeet i 1).cisPop i
    else s)

/-- CISTERN_READ_STALL_EXPIRY: the oldest held read of CIS_RD_TAG has waited STALL x 16 ns and returns VALID 0 (R215). -/
def execCisternReadStallExpiry (i dt : Nat) (s : State) : Out :=
  unitEvent (decide (i < 272)) dt s (fun s =>
    match (s.cis i).held with
    | [] => s
    | h :: hs =>
      if h.until_ ≤ s.now then
        let s1 := { s with latch := Table.setList (fun _ => 0) s.latch ((aCis i + 0x44) / 4) (List.replicate 8 0) }
        (s1.setCis i { s1.cis i with held := hs }).rwAnswerWith h.pkt (tagAnswer h.pkt 0 (List.replicate 8 0))
      else s)

/-- POINTER_MISMATCH: the two copies of a pointer disagree and the Cistern starts a forced reset (R218, steps 1 to 4). -/
def execPointerMismatch (i : Nat) (read : Bool) (dt : Nat) (s : State) : Out :=
  unitEvent (decide (i < 272)) dt s (fun s =>
    if (s.cis i).resetting then s
    else
      let mid := match (s.cis i).frames with | f :: _ => f.begun && !(s.cis i).dropping | [] => false
      let s1 := ((s.cisEmpty i false).setRb (aCis i + 0xC) 31 true).setRb (aCis i + 0xC) 30 read
      (s1.modCis i (fun x => { x with resetting := true, abortOwed := x.abortOwed || mid })).cisSettle i false)

/-- FORCED_RESET_END: both pointers are 0 and the Cistern runs again (R218, steps 5 and 6). -/
def execForcedResetEnd (i dt : Nat) (s : State) : Out :=
  unitEvent (decide (i < 272)) dt s (fun s =>
    if (s.cis i).resetting then
      (((s.modCis i (fun x => { x with resetting := false })).logEvent 0x36 (cisId i)
        (if s.rb (aCis i + 0xC) 30 then 1 else 0) 0 0).addCnt (aCis i + 0x98) 1).cisternEvent i 2
    else s)

end Sys2Proof.Machine
end

