-- ==== Sys2Proof/Machine/Crc.lean ====
section
/-!
DEFINITION. The two cyclic codes of the manual: CRC-32C over bytes (R49) and the CRC-8 of a ladder block (R143).
-/
namespace Sys2Proof.Machine

open Sys2Proof

/-- One bit of the reflected CRC-32C register. -/
def crc32cBit (r : Nat) : Nat := if r % 2 = 1 then (r / 2) ^^^ 0x82F63B78 else r / 2

/-- One byte enters the register. -/
def crc32cByte (r : Nat) (b : Byte) : Nat :=
  (List.range 8).foldl (fun r _ => crc32cBit r) (r ^^^ b.toNat)

/-- CRC-32C over bytes in the order sent (R49). -/
def crc32c (bs : List Byte) : Word := w32 (bs.foldl crc32cByte 0xFFFFFFFF ^^^ 0xFFFFFFFF)

/-- CRC-32C of words, each sent most significant byte first (R49). -/
def crc32cWords (ws : List Word) : Word := crc32c (ws.flatMap wordBytes)

/-- One bit of the CRC-8 register: polynomial x^8 + x^2 + x + 1, not reflected. -/
def crc8Bit (r : Nat) : Nat := if 128 ≤ r then (2 * r % 256) ^^^ 0x07 else 2 * r

/-- The check byte of a ladder block: CRC-8 of the capability word's four bytes (R143). -/
def crc8 (w : Word) : Byte :=
  BitVec.ofNat 8 ((wordBytes w).foldl (fun r b => (List.range 8).foldl (fun r _ => crc8Bit r) (r ^^^ b.toNat)) 0)

end Sys2Proof.Machine
end

