-- ==== Sys2Proof/Machine/LineCode.lean ====
section
/-! DEFINITION. What the codings put on the line and take from it: 8b/10b (R143, R166), 64b/66b (R167), scramble-and-stuff
(R169-R173), the bits of PRBS7 to PRBS31 (R155), and the transmitter's stream from word to word. -/

namespace Sys2Proof.Machine.LineCode

open Sys2Proof

/-! ### Scramble-and-stuff -/

/-- The bits of a 64-bit word, bit 63 first (R169). -/
def wordBits (w : Word64) : List Bool := (List.range 64).map (fun i => w.getLsbD (63 - i))

/-- The sync word of a block: the marker, BC and its complement (R169). -/
def syncWord (bc : BitVec 16) : Word64 := (0xC3A596E1#32 ++ bc ++ ~~~bc).setWidth 64

/-- The scrambler at the start of a block's payload: BC above fifteen ones (R170). -/
def seed (bc : BitVec 16) : BitVec 31 := (bc ++ 0x7FFF#15).setWidth 31

/-- The bit the scrambler adds, which also enters it (R170). -/
def keyBit (s : BitVec 31) : Bool := s.getLsbD 30 != s.getLsbD 27

/-- The scrambler after one payload bit: `S` becomes `S[29:0]` with the key bit below (R170). -/
def nextSeed (s : BitVec 31) : BitVec 31 := (s <<< 1) ||| (if keyBit s then 1 else 0)

/-- Scramble payload bits; the coding is additive, so the same function takes the scrambling off (R170, R172). -/
def scramble : BitVec 31 → List Bool → List Bool
  | _, [] => []
  | s, p :: ps => (p != keyBit s) :: scramble (nextSeed s) ps

/-- The run after one more bit (R171): it grows while bits are equal; a count of 0 has no bit before it. -/
def runOn (run : Nat) (last b : Bool) : Nat := if run ≠ 0 ∧ b = last then run + 1 else 1

/-- Insert the stuff bits: after the 31st equal bit comes one of the opposite value, and the count becomes 1 (R171). -/
def stuff : Nat → Bool → List Bool → List Bool
  | _, _, [] => []
  | run, last, b :: bs =>
    if runOn run last b = 31 then b :: (!b) :: stuff 1 (!b) bs else b :: stuff (runOn run last b) b bs

/-- The next n payload bits of a block: the bit that follows every run of 31 is removed, one that equals the run being counted as a
coding error, and the scrambling is taken off; none while they have not all come (R172, R173). -/
def unstuff : Nat → RxLine → Option (List Bool × Nat × RxLine)
  | 0, l => some ([], 0, l)
  | n + 1, l =>
    match l.bits with
    | [] => none
    | b :: bs =>
      let p := b != keyBit l.seed
      let k := runOn l.run l.last b
      if k = 31 then
        match bs with
        | [] => none
        | c :: cs => (unstuff n { l with bits := cs, seed := nextSeed l.seed, run := 1, last := c }).map
            (fun r => (p :: r.1, r.2.1 + (if c = b then 1 else 0), r.2.2))
      else (unstuff n { l with bits := bs, seed := nextSeed l.seed, run := k, last := b }).map (fun r => (p :: r.1, r.2))

/-- The bits of a block as sent: the sync word, then the scrambled and stuffed bits of its channel words (R169-R171). -/
def txBlock (bc : BitVec 16) (words : List Word64) : List Bool :=
  wordBits (syncWord bc) ++ stuff 0 false (scramble (seed bc) (words.flatMap wordBits))

/-! ### 64b/66b -/

/-- One bit through the self-synchronous scrambler x^58 + x^39 + 1 of 64b/66b: the bit sent, and the register (R167). -/
def scramble66 (s : BitVec 58) (p : Bool) : Bool × BitVec 58 :=
  let b := p != (s.getLsbD 38 != s.getLsbD 57)
  (b, (s <<< 1) ||| (if b then 1 else 0))

/-- One bit through the descrambler, whose register holds the bits received. -/
def descramble66 (s : BitVec 58) (b : Bool) : Bool × BitVec 58 :=
  (b != (s.getLsbD 38 != s.getLsbD 57), (s <<< 1) ||| (if b then 1 else 0))

/-- Run bits through a scrambler or a descrambler. -/
def through66 (f : BitVec 58 → Bool → Bool × BitVec 58) : BitVec 58 → List Bool → List Bool × BitVec 58
  | s, [] => ([], s)
  | s, p :: ps =>
    let (b, s1) := f s p
    let (bs, s2) := through66 f s1 ps
    (b :: bs, s2)

/-- The bits of a block's 64 payload bits, bit 0 first (R167). -/
def blockBits (w : Word64) : List Bool := (List.range 64).map (fun i => w.getLsbD i)

/-- A block as sent: a sync header, 0b01 for data and 0b10 for control, left bit first, then the scrambled payload. -/
def txBlock66 (s : BitVec 58) (control : Bool) (payload : Word64) : List Bool × BitVec 58 :=
  let (bs, s1) := through66 scramble66 s (blockBits payload)
  ([control, !control] ++ bs, s1)

/-- The payload of an idle block: type 0x1E and eight idle characters, all zero. -/
def idle66 : Word64 := 0x1E

/-- What a received 66-bit block is, by its sync header and, for a control block, its type (R167). -/
inductive Block66 where
  | data | idle | codingError
deriving DecidableEq, Repr

/-- The kind of a block: header 0b01 data, 0b10 control; of control blocks only type 0x1E is known (R167). -/
def block66 (header : BitVec 2) (type : BitVec 8) : Block66 :=
  if header = 0b01 then .data else if header = 0b10 ∧ type = 0x1E then .idle else .codingError

/-- One sync header through the block lock of Clause 49: locked, headers counted, invalid ones among them. 64 valid headers
in a row lock; 16 invalid ones among 64 lose the lock (PRESUMED from the clause R167 names, log entry 64). -/
def blockLockStep (locked : Bool) (n bad : Nat) (header : Nat) : Bool × Nat × Nat :=
  if header = 1 ∨ header = 2 then
    if n + 1 = 64 then (locked || decide (bad = 0), 0, 0) else (locked, n + 1, bad)
  else if !locked ∨ bad + 1 = 16 then (false, 0, 0)
  else if n + 1 = 64 then (locked, 0, 0) else (locked, n + 1, bad + 1)

/-! ### 8b/10b (R143, R166): code groups of ten bits, bit 9 sent first -/

/-- The six-bit part of D.x at negative running disparity. -/
def sixOf : List (BitVec 6) := [
  0b100111, 0b011101, 0b101101, 0b110001, 0b110101, 0b101001, 0b011001, 0b111000,
  0b111001, 0b100101, 0b010101, 0b110100, 0b001101, 0b101100, 0b011100, 0b010111,
  0b011011, 0b100011, 0b010011, 0b110010, 0b001011, 0b101010, 0b011010, 0b111010,
  0b110011, 0b100110, 0b010110, 0b110110, 0b001110, 0b101110, 0b011110, 0b101011]

/-- The four-bit part of D.x.y at negative running disparity. -/
def fourOf : List (BitVec 4) := [0b1011, 0b1001, 0b0101, 0b1100, 0b1101, 0b1010, 0b0110, 0b1110]

/-- The ones in the low n bits of a value. -/
def ones (n v : Nat) : Nat := (List.range n).countP (fun k => v.testBit k)

/-- The code group of a data byte at a running disparity (false negative), and the disparity after it. -/
def encodeData (rd : Bool) (b : Byte) : BitVec 10 × Bool :=
  let x := b.toNat % 32
  let y := b.toNat / 32
  let s := sixOf.getD x 0
  let odd6 := decide (ones 6 s.toNat ≠ 3)
  let six := if rd && (odd6 || decide (x = 7)) then ~~~s else s
  let mid := rd != odd6
  let alt := decide (y = 7) && (if mid then decide (x ∈ [11, 13, 14]) else decide (x ∈ [17, 18, 20]))
  let f := if alt then 0b0111#4 else fourOf.getD y 0
  let odd4 := decide (ones 4 f.toNat ≠ 2)
  let four := if mid && (odd4 || decide (y = 3)) then ~~~f else f
  (six ++ four, mid != odd4)

/-- K28.5, which turns the running disparity. -/
def encodeComma (rd : Bool) : BitVec 10 × Bool := (if rd then 0b1100000101 else 0b0011111010, !rd)

/-- What a code group is at a running disparity: a data byte, K28.5, or neither (another K group, a code violation or a
disparity error). -/
inductive Group where
  | data (b : Byte)
  | comma
  | bad
deriving DecidableEq, Repr

/-- Decode a code group, with the disparity after it. -/
def decodeGroup (rd : Bool) (g : BitVec 10) : Group × Bool :=
  if g = (encodeComma rd).1 then (.comma, !rd)
  else match (List.range 256).find? (fun k => decide ((encodeData rd (BitVec.ofNat 8 k)).1 = g)) with
    | some k => (.data (BitVec.ofNat 8 k), (encodeData rd (BitVec.ofNat 8 k)).2)
    | none => let n := ones 10 g.toNat; (.bad, if 5 < n then true else if n < 5 then false else rd)

/-- The bits of a code group. -/
def groupBits (g : BitVec 10) : List Bool := (List.range 10).map (fun i => g.getLsbD (9 - i))

/-- Encode a list of characters, none being K28.5: the bits, and the disparity after them. -/
def encode10 : Bool → List (Option Byte) → List Bool × Bool
  | rd, [] => ([], rd)
  | rd, c :: cs =>
    let (g, rd1) := match c with | some b => encodeData rd b | none => encodeComma rd
    let (bs, rd2) := encode10 rd1 cs
    (groupBits g ++ bs, rd2)

/-- The bytes of a channel word, the first in [63:56] (R166). -/
def bytesOf (w : Word64) : List Byte := (List.range 8).map (fun i => BitVec.ofNat 8 (w.toNat / 2 ^ (8 * (7 - i))))

/-- The idle word: K28.5 D16.2 four times (R166). -/
def idle8b : List (Option Byte) := (List.replicate 4 [none, some 0x50]).flatten

/-! ### The receiver's stream -/

/-- A received word: its value, whether it is an idle word, whether it holds a coding error, and how many bits have come since its
first, that one counted. -/
structure RxItem where
  word : Word64
  idle : Bool := false
  err : Bool := false
  back : Nat := 0
deriving DecidableEq, Repr

/-- A number from bits, the first on top. -/
def numOf (bs : List Bool) : Nat := bs.foldl (fun n b => 2 * n + b.toNat) 0

/-- Code groups from bits, with the disparity after them. -/
def groupsOf : Nat → Bool → List Bool → List (Group × BitVec 10) × Bool
  | 0, rd, _ => ([], rd)
  | n + 1, rd, bs =>
    let g := BitVec.ofNat 10 (numOf (bs.take 10))
    let (x, rd1) := decodeGroup rd g
    let (xs, rd2) := groupsOf n rd1 (bs.drop 10)
    ((x, g) :: xs, rd2)

/-- A lane word of eight code groups: a data word, the idle word, or a coding error (R166). -/
def rxWord10 (l : RxLine) : RxItem × RxLine :=
  let (gs, rd) := groupsOf 8 l.disp l.bits
  let value := gs.map (fun e => match e.1 with | .data b => b | _ => Config.badByte e.2)
  let idle := decide (gs.map (·.1) = (List.replicate 4 [Group.comma, .data 0x50]).flatten)
  ({ word := BitVec.ofNat 64 (value.foldl (fun n b => 256 * n + b.toNat) 0), idle := idle
     err := !idle && gs.any (fun e => match e.1 with | .data _ => false | _ => true), back := l.bits.length },
   { l with disp := rd, bits := l.bits.drop 80 })

/-- A block of 66 bits: its sync header, then its payload, bit 0 first (R167). -/
def rxWord66 (l : RxLine) : RxItem × RxLine :=
  let (ps, scr) := through66 descramble66 l.scr ((l.bits.drop 2).take 64)
  let w : Word64 := BitVec.ofNat 64 (numOf ps.reverse)
  let kind := block66 (BitVec.ofNat 2 (numOf (l.bits.take 2))) (w.setWidth 8)
  ({ word := w, idle := decide (kind = .idle), err := decide (kind = .codingError), back := l.bits.length },
   { l with scr := scr, bits := l.bits.drop 66 })

/-- The next received word of a coding at a step, none until all its bits have come; on scramble-and-stuff none past a block's end,
where a sync word comes. -/
def rxWord (coding step : Nat) (l : RxLine) : Option (RxItem × RxLine) :=
  match coding with
  | 0 =>
    if step ≤ 4 then (if l.bits.length < 80 then none else some (rxWord10 l))
    else (if l.bits.length < 66 then none else some (rxWord66 l))
  | 1 =>
    match l.left with
    | some (n + 1) => (unstuff 64 l).map (fun r =>
        let w : Word64 := BitVec.ofNat 64 (numOf r.1)
        ({ word := w, idle := decide (w = 0), err := decide (r.2.1 ≠ 0), back := l.bits.length }, { r.2.2 with left := some n }))
    | _ => none
  | _ => none

/-- The words that have come, over fuel, and the stream after them. -/
def rxAll (coding step : Nat) : Nat → RxLine → List RxItem × RxLine
  | 0, l => ([], l)
  | n + 1, l =>
    match rxWord coding step l with
    | none => ([], l)
    | some (i, l1) =>
      let (is, l2) := rxAll coding step n l1
      (i :: is, l2)

/-- A block begins behind its sync word, its payload scrambled from BC (R170, R172). -/
def rxBlock (bc : BitVec 16) (l : RxLine) : RxLine := { l with seed := seed bc, run := 0, left := some 62, bits := [] }

/-! ### The transmitter's stream -/

/-- One bit of a scramble-and-stuff payload, with the stuff bit it may bring (R171). -/
def sendBit (l : TxLine) (p : Bool) : List Bool × TxLine :=
  let b := p != keyBit l.seed
  let n := runOn l.run l.last b
  if n = 31 then ([b, !b], { l with seed := nextSeed l.seed, run := 1, last := !b })
  else ([b], { l with seed := nextSeed l.seed, run := n, last := b })

/-- Payload bits in turn. -/
def sendBits : TxLine → List Bool → List Bool × TxLine
  | l, [] => ([], l)
  | l, p :: ps =>
    let (b, l1) := sendBit l p
    let (bs, l2) := sendBits l1 ps
    (b ++ bs, l2)

/-- One channel word on scramble-and-stuff: a block's first word follows its sync word, and BC goes up by one (R169). -/
def sendStuffed (l : TxLine) (w : Word64) : List Bool × TxLine :=
  let (h, l1) := if l.left = 0
    then (wordBits (syncWord l.bc), { l with seed := seed l.bc, run := 0, left := 62, bc := l.bc + 1 }) else ([], l)
  let (bs, l2) := sendBits l1 (wordBits w)
  (h ++ bs, { l2 with left := l2.left - 1 })

/-- A channel word on a coding at a step; `none` is an idle word (R165-R169, R174). -/
def sendWord (coding step : Nat) (l : TxLine) (w : Option Word64) : List Bool × TxLine :=
  match coding with
  | 0 =>
    if step ≤ 4 then
      let (bs, rd) := encode10 l.disp (match w with | some x => (bytesOf x).map some | none => idle8b)
      (bs, { l with disp := rd })
    else
      let (bs, s1) := txBlock66 l.scr w.isNone (w.getD idle66)
      (bs, { l with scr := s1 })
  | 1 => sendStuffed l (w.getD 0)
  | _ => (wordBits (w.getD 0), l)

/-- Channel words in turn. -/
def sendAll (coding step : Nat) : TxLine → List Word64 → List Bool × TxLine
  | l, [] => ([], l)
  | l, w :: ws =>
    let (b, l1) := sendWord coding step l (some w)
    let (bs, l2) := sendAll coding step l1 ws
    (b ++ bs, l2)

/-- The idle words that whole fill a span of line bits; 8b/10b and raw idle words leave the stream as it was. -/
def idleOver (coding step : Nat) : Nat → Nat → TxLine → TxLine
  | 0, _, l => l
  | n + 1, span, l =>
    if coding = 2 ∨ (coding = 0 ∧ step ≤ 4) then l
    else
      let (bs, l1) := sendWord coding step l none
      if bs.length ≤ span then idleOver coding step n (span - bs.length) l1 else l

/-! ### Ladder blocks (R143) -/

/-- A ladder block: K28.5, the capability word's bytes and the check byte. -/
def ladderBlock (cap : Word) (check : Byte) : List (Option Byte) :=
  [none] ++ ((List.range 4).map (fun i => some (BitVec.ofNat 8 (cap.toNat / 2 ^ (8 * (3 - i)))))) ++ [some check]

/-- The running disparity after n blocks in a row. -/
def dispAfter (block : List (Option Byte)) (rd : Bool) (n : Nat) : Bool :=
  let once := fun (d : Bool) => (encode10 d block).2
  if n = 0 then rd else if once (once rd) = rd then (if n % 2 = 0 then rd else once rd) else once rd

/-! ### PRBS (R155) -/

/-- Length and second tap of the sequences: x^7 + x^6 + 1, x^15 + x^14 + 1, x^23 + x^18 + 1, x^31 + x^28 + 1 (PRESUMED: the
spec names the sequences only, log entry 65). -/
def prbsTaps (poly : Nat) : Nat × Nat := [(7, 6), (15, 14), (23, 18), (31, 28)].getD poly (7, 6)

/-- The next bit of a sequence from its last bits, the latest in bit 0. -/
def prbsBit (poly : Nat) (r : BitVec 31) : Bool :=
  let (n, m) := prbsTaps poly
  r.getLsbD (n - 1) != r.getLsbD (m - 1)

/-- The register after a bit. -/
def prbsShift (r : BitVec 31) (b : Bool) : BitVec 31 := (r <<< 1) ||| (if b then 1 else 0)

/-- n bits of the generator. -/
def prbsGen (poly : Nat) : Nat → BitVec 31 → List Bool × BitVec 31
  | 0, r => ([], r)
  | n + 1, r =>
    let b := prbsBit poly r
    let (bs, r1) := prbsGen poly n (prbsShift r b)
    (b :: bs, r1)

/-- The checker over received bits: it fills its register, then counts the bits that differ from its own sequence. -/
def prbsCheck (poly : Nat) : BitVec 31 → Nat → Nat → List Bool → BitVec 31 × Nat × Nat
  | r, fill, errs, [] => (r, fill, errs)
  | r, fill, errs, b :: bs =>
    if fill < (prbsTaps poly).1 then prbsCheck poly (prbsShift r b) (fill + 1) errs bs
    else prbsCheck poly (prbsShift r (prbsBit poly r)) fill (errs + if b = prbsBit poly r then 0 else 1) bs

end Sys2Proof.Machine.LineCode
end

