-- ==== Sys2Proof/Machine/Lanes.lean ====
section
/-!
DEFINITION. Serial lanes (R138-R163, R476, R579): speed steps, the ladder, fixed mode, loops, eye scans, alignment.
-/
namespace Sys2Proof.Machine

open Sys2Proof

/-- Rates of the speed steps in kb/s (R142). -/
def stepKbps (n : Nat) : Nat :=
  [1250000, 2500000, 3125000, 5000000, 6250000, 10312500, 12500000, 25781250, 28000000, 53125000, 58000000].getD n 1250000

/-- The time of n bits at a step, in ps. -/
def bitsPs (n step : Nat) : Nat := cdiv (n * 1000000000) (stepKbps step)

/-- The time of sixteen ladder blocks of six 8b/10b characters (R143). -/
def blocks16 (step : Nat) : Nat := bitsPs 960 step

/-- Timeouts of the ladder states in ps (R141, R146, R147). -/
def synthTmo : Nat := 50000000
def agreeTmo : Nat := 2000000000
def trainTmo : Nat := 8000000000
def verifyTmo : Nat := 4000000000
def quietTmo : Nat := 500000000
def verifyWin : Nat := 1000000000
def noPartnerTmo : Nat := 100000000000

namespace State

/-! ### Configuration fields -/

def lnMax (s : State) (l : Nat) : Nat := s.rf (aLane l) 7 4
def lnStart (s : State) (l : Nat) : Nat := s.rf (aLane l) 3 0
def lnFixed (s : State) (l : Nat) : Bool := s.rb (aLane l) 22
def lnFixStep (s : State) (l : Nat) : Nat := s.rf (aLane l) 21 18
def lnLoopStep (s : State) (l : Nat) : Nat := s.rf (aLane l) 17 14

/-- The advertised STEPS: every step from 0 to MAX_STEP (R145). -/
def lnAdv (s : State) (l : Nat) : Nat := (2 ^ (s.lnMax l + 1) - 1) % 2048

/-- The capability word of a state code and rung (R143, R145). -/
def capWord (s : State) (l st rung : Nat) : Word :=
  at_ 28 2 ||| at_ 16 (s.lnAdv l) ||| at_ 12 (st % 16) ||| at_ 8 (rung % 16) ||| w32 (s.rf (aLane l) 31 24)

/-- The ladder block of a capability word (R143). -/
def ladderChars (cap : Word) : List (Option Byte) := LineCode.ladderBlock cap (crc8 cap)

/-- Ladder blocks of its word that a lane has begun to send: they follow one another from the first (R143). -/
def ladderBlocks (s : State) (l : Nat) : Nat :=
  let x := s.lane l
  if x.sending then cdiv ((s.now - x.ownSince) * stepKbps x.step) 60000000000 else 0

/-- The running disparity behind the ladder block that a lane sends now. Electrical idle and a retune leave it as it was (DESIGN
CHOICE, log entry 89). -/
def ladderDisp (s : State) (l : Nat) : Bool :=
  LineCode.dispAfter (ladderChars (s.lane l).own) (s.lane l).disp (s.ladderBlocks l)

/-- The lane sends the ladder word of a state code and rung, at normal running disparity, back to back with the block that it is
sending (R143). A word that it sends already goes on. -/
def sendCap (s : State) (l st rung : Nat) : State :=
  let w := s.capWord l st rung
  if (s.lane l).sending && decide ((s.lane l).own = w) then s
  else s.modLane l (fun x => { x with
    own := w, sending := true, disp := s.ladderDisp l
    ownSince := if x.sending then x.ownSince + bitsPs (60 * s.ladderBlocks l) x.step else s.now })

/-- No ladder block is sent from now on, or none at the old step. -/
def capEnds (s : State) (l : Nat) : State := s.modLane l (fun x => { x with disp := s.ladderDisp l, sending := false, ownSince := s.now })

/-- The lowest common step above the current one (R145, R146); none in DRAIN (R476). -/
def proposal (s : State) (l : Nat) : Option Nat :=
  let x := s.lane l
  if s.mode = .drain ∨ !x.heard then none
  else (List.range 11).find? (fun n =>
    decide (x.step < n) && (s.lnAdv l).testBit n && bit x.cap (16 + n) && decide (n < x.cut))

/-! ### Eye scans (R157-R160) -/

/-- The signed readings of a scan axis word: start, end and stride. -/
def axis (w : Word) : Int × Int × Nat := (signedOf 8 (fld w 31 24), signedOf 8 (fld w 23 16), fld w 7 0)

/-- Points of an axis. -/
def axisPoints (w : Word) : Nat := let (a, b, n) := axis w; ((b - a) / n).toNat + 1

/-- The index of 0 on an axis. -/
def axisZero (w : Word) : Nat := let (a, _, n) := axis w; ((-a) / n).toNat

/-- An axis is well formed within limits lo to hi (R157). -/
def axisOk (w : Word) (lo hi : Int) : Bool :=
  let (a, b, n) := axis w
  decide (a ≤ b) && decide (lo ≤ a) && decide (b ≤ hi) && decide (1 ≤ n) && decide (n ≤ 16) &&
  decide ((b - a) % n = 0) && decide (axisPoints w ≤ 32) && decide (a ≤ 0) && decide (0 ≤ b) && decide ((-a) % n = 0)

/-- The encoding of a count as exponent and mantissa (R159). -/
def eyeCode (c : Nat) : Nat :=
  if c < 2048 then c
  else
    let e := Nat.log2 c - 10
    if 31 < e then 0xFFFF else e * 2048 + c / 2 ^ e

/-- The decoded count of a code. -/
def eyeCount (code : Nat) : Nat := code % 2048 * 2 ^ (code / 2048)

/-- The run of open points through index z of a line of n points (R160). -/
def openRun (n z : Nat) (f : Nat → Bool) : Nat :=
  if !f z then 0
  else
    let up := ((List.range n).filter (fun k => decide (z < k) && (List.range (k + 1)).all (fun j => decide (j < z) || f j))).length
    let down := ((List.range n).filter (fun k => decide (k < z) && (List.range z).all (fun j => decide (j < k) || f j))).length
    1 + up + down

/-- The time of one point in ps (R157). -/
def pointPs (x : Scan) : Nat := bitsPs (2 ^ x.dwell) x.step + 2000000

/-- Points of a scan. -/
def scanPoints (x : Scan) : Nat := axisPoints x.phase * axisPoints x.volt

/-- Write the result block of quad q (R87, R159, R160), with the codes measured, and end the scan. -/
def scanFinish (s : State) (q : Nat) (x : Scan) (err : Bool) (codes : List Nat) : State :=
  let np := axisPoints x.phase
  let nv := axisPoints x.volt
  let at0 : Nat → Nat → Bool := fun v p =>
    decide (eyeCount (codes.getD (v * np + p) 0) ≤ s.rf (aLane x.lane + 0x40) 15 0)
  let zp := axisZero x.phase
  let zv := axisZero x.volt
  let width := if err then 0 else openRun np zp (at0 zv) * fld x.phase 7 0
  let height := if err then 0 else openRun nv zv (fun v => at0 v zp) * fld x.volt 7 0
  let pass := !err && decide (s.rf (aLane x.lane + 0x40) 23 16 ≤ width) && decide (s.rf (aLane x.lane + 0x40) 31 24 ≤ height)
  let b := aQuad q + 0x400
  let words : List Word := [
    resDone (s.reg b) err, at_ 16 (np * nv) ||| at_ 8 x.dwell ||| w32 x.lane, x.phase, x.volt, w32 x.step,
    at_ 16 height ||| w32 width, flag 0 pass, 0] ++
    (List.range 512).map (fun k => at_ 16 (codes.getD (2 * k + 1) 0) ||| w32 (codes.getD (2 * k) 0))
  let s1 := (List.range 520).foldl (fun (s : State) k => s.setReg (b + 4 * k) (words.getD k 0)) s
  let s2 := s1.setScan q none
  if pass ∧ (s2.chan x.lane).retired then s2.modChan x.lane (fun c => { c with scanOk := true }) else s2

/-- A running scan of lane l ends with ERR: the points its time has measured keep their counts, whose values nothing in
the command gives (free values), the others read 0 (R158). -/
def scanAbort (s : State) (l : Nat) : State :=
  match s.scan (l / 4) with
  | none => s
  | some x =>
    if x.lane ≠ l then s
    else
      let n := min (scanPoints x) ((s.now - x.startedAt) / pointPs x)
      let codes := (List.range n).map (fun k => eyeCode (Config.freeWord (s.freeCtr + k)).toNat)
      State.scanFinish { s with freeCtr := s.freeCtr + n } (l / 4) x true codes

/-! ### State changes (R146) -/

/-- The channel of lane l stops carrying traffic: what it was sending ends, its sync is lost, and a frame it was receiving
fails (R148, R151, R201, R212). -/
def carryStop (s : State) (c : Nat) : State :=
  (s.rxAbort c).modChan c (fun x => { x with
    sync := false, goodSync := 0, badSync := 0, txEnd := min x.txEnd s.now, txLaunch := false })

/-- The lane enters a ladder state; an eye scan on it ends when it leaves its state (R158). -/
def ladderGo (s : State) (l : Nat) (st : Ladder) : State :=
  let was := (s.lane l).st
  let s1 := if was = st then s else s.scanAbort l
  let s2 := if was = .run ∧ st ≠ .run then s1.carryStop l else s1
  let s3 := if st ∈ [.switch, .run, .loop, .off] then s2.capEnds l else s2
  s3.modLane l (fun x => { x with
    st := st, enteredAt := s.now, count := 0, further := none, noPartner := false, sendDone := false,
    windowClean := false, windowStart := s.now, returning := false, lastValid := s.now })

/-- The lane retunes: its synthesiser loses lock until it has locked at the new step (R141); that the receiver loses lock
too, LN_STAT.LOCK going to 0 at every retune, is the model's choice (DESIGN CHOICE, log entry 66). -/
def retune (s : State) (l step : Nat) (force : Bool) : State :=
  if (s.lane l).step = step ∧ !force then s
  else (s.capEnds l).modLane l (fun x => { x with
    step := step, synth := false, lock := false, retuning := true, retunedAt := s.now })

/-- RESTARTS counts and saturates. -/
def addRestart (s : State) (l : Nat) : State := s.modLane l (fun x => { x with restarts := min 0xFFFF (x.restarts + 1) })

/-- ANNOUNCE at a step. -/
def toAnnounce (s : State) (l step : Nat) : State :=
  let fromIdle := decide ((s.lane l).st = .off) || decide ((s.lane l).st = .switch)
  ((s.ladderGo l .announce).retune l step fromIdle).sendCap l 0 step

/-- A timeout sends the lane to ANNOUNCE at step 0, counted in RESTARTS (R146). -/
def timeoutAnnounce (s : State) (l : Nat) : State := (s.addRestart l).toAnnounce l 0

/-- The word an AGREE lane sends: PROPOSE of its rung, else DONE (R146, R147). -/
def sendAgree (s : State) (l : Nat) (p : Option Nat) : State :=
  match p with
  | some r => s.sendCap l 1 r
  | none => s.sendCap l 4 (s.lane l).step

/-- AGREE at the current step. In DRAIN it is to end with DONE, also after DRAIN is left (R476). -/
def toAgree (s : State) (l : Nat) : State :=
  let s1 := s.ladderGo l .agree
  let p := s1.proposal l
  (s1.modLane l (fun x => { x with
    prop := p, rung := p.getD x.step, sendDone := decide (s.mode = .drain) })).sendAgree l p

/-- DRAIN begins: a lane in AGREE holds no step above its rung common any more, and its PROPOSE becomes DONE (R476). -/
def drainLane (s : State) (l : Nat) : State :=
  let x := s.lane l
  if x.st ≠ .agree then s
  else if x.prop.isNone then s.modLane l (fun x => { x with sendDone := true })
  else (s.modLane l (fun x => { x with sendDone := true, prop := none, rung := x.step, count := 0, further := none })).sendAgree l none

/-- The channel coding goes out from now on, from its beginning. -/
def streamStart (s : State) (l : Nat) : State := s.modChan l (fun c => { c with line := { at_ := s.now } })

/-- SWITCH to a rung: electrical idle while the synthesiser retunes; a fixed lane sends channel coding from here on (R150). -/
def toSwitch (s : State) (l rung : Nat) : State :=
  let s1 := ((s.ladderGo l .switch).retune l rung true).modLane l (fun x => { x with rung := rung })
  if s.lnFixed l then s1.streamStart l else s1

/-- The receive equaliser's values at the start of a TRAIN: CTLE 8, VGA 32, all taps 0, whatever is frozen (R153). -/
def trainEq (s : State) (l : Nat) : List Word :=
  if 2 ≤ s.rf (aLane l + 0x14) 1 0 then [s.reg (aLane l + 0x18) &&& 0x3FF, 0, 0, 0] else [0x208, 0, 0, 0]

/-- An adaptation update to given values: frozen ones and those of MODE 0b10 are held (R153). -/
def adaptEq (s : State) (l : Nat) (old vals : List Word) : List Word :=
  let c := s.reg (aLane l + 0x14)
  let off := decide (2 ≤ fld c 1 0)
  [if off || bit c 2 then old.getD 0 0 else vals.getD 0 0 &&& 0x3FF] ++
    (List.range 3).map (fun k => if off || bit c 3 then old.getD (k + 1) 0 else vals.getD (k + 1) 0)

/-- TRAIN at the current rung. -/
def toTrain (s : State) (l : Nat) : State :=
  let s1 := (s.ladderGo l .train).modLane l (fun x => { x with adapt := false, eq := s.trainEq l })
  if s.lnFixed l then s1 else s1.sendCap l 2 (s.lane l).step

/-- VERIFY at the current rung. -/
def toVerify (s : State) (l : Nat) : State := (s.ladderGo l .verify).sendCap l 2 (s.lane l).step

/-- FALLBACK with a failed rung (R145, R147). -/
def toFallback (s : State) (l failed : Nat) : State :=
  let x := s.lane l
  let good := x.passed.filter (fun g => decide (g < failed))
  let back := match good.max? with
    | some g => some g
    | none => if x.climbStart < failed then some x.climbStart else none
  let s1 := (s.ladderGo l .fallback).modLane l (fun x => { x with
    failedRung := failed, cut := min x.cut failed, passed := good, back := back })
  (s1.setRb (aLane l + 0x10) 30 true).sendCap l 5 failed

/-- The second part of FALLBACK: ANNOUNCE at the last good rung, or on to ANNOUNCE at step 0 (R147). -/
def fallbackReturn (s : State) (l : Nat) : State :=
  match (s.lane l).back with
  | none => s.toAnnounce l 0
  | some g => ((s.retune l g false).modLane l (fun x => { x with returning := true, count := 0 })).sendCap l 0 g

/-- RUN: the lane hands its words to the channel and the coding takes effect; the stream of a fixed lane that trained goes on, its
next block being the first in RUN (R148, R150, R165, R169). Both directions of 8b/10b start at negative running disparity (DESIGN
CHOICE, log entry 58). -/
def toRun (s : State) (l : Nat) : State :=
  let s1 := (s.ladderGo l .run).modChan l (fun c => { c with
    runSince := s.now, sync := false, goodSync := 0, badSync := 0, blockCount := 0, lastSent := s.now, rxLine := {}, rx := none })
  let s2 := if s.lnFixed l && decide ((s.lane l).st = .train) then s1.modChan l (fun c => { c with line := { c.line with bc := 0 } })
    else s1.streamStart l
  s2.modLane l (fun x => { x with straddle := false })

/-- HOLD at the current step (R149). -/
def toHold (s : State) (l : Nat) : State := (s.ladderGo l .hold).sendCap l 6 (s.lane l).step

/-- OFF: electrical idle (R146). -/
def toOff (s : State) (l : Nat) : State := (s.ladderGo l .off).modLane l (fun x => { x with synth := false, loopKind := 0 })

/-- A climb starts at a step (R145). -/
def climb (s : State) (l start : Nat) : State :=
  s.modLane l (fun x => { x with climbStart := start, cut := 11, passed := [], failedRung := 15 })

/-- The channel is enabled: the ladder starts (R146, R150). -/
def ladderStart (s : State) (l : Nat) : State :=
  if (s.lane l).st ≠ .off then s
  else if s.lnFixed l then (s.climb l (s.lnFixStep l)).toSwitch l (s.lnFixStep l)
  else (s.climb l (s.lnStart l)).toAnnounce l (s.lnStart l)

/-- The channel is disabled: OFF, or OFF as the state LOOP returns to; START_STEP is 0 (R154, R201). -/
def ladderOff (s : State) (l : Nat) : State :=
  let s1 := s.setRf (aLane l) 3 0 0
  match (s1.lane l).st with
  | .loop => s1.modLane l (fun x => { x with loopReturn := .off })
  | .off => s1
  | _ => s1.toOff l

/-- The channel retires: HOLD from any state but OFF and LOOP (R149, R184). -/
def ladderHold (s : State) (l : Nat) : State :=
  match (s.lane l).st with
  | .off => s
  | .loop => s.modLane l (fun x => { x with loopReturn := .hold })
  | _ => s.toHold l

/-! ### Conditions (R146, R147, R579) -/

/-- The condition for leaving is met: 16 further blocks follow (R579). -/
def setFurther (s : State) (l : Nat) : State :=
  s.modLane l (fun x => { x with further := some (x.further.getD (s.now + blocks16 x.step)) })

/-- The lane acts on the condition once the 16 further blocks are sent. A ladder that LADDER_RESTART has started on a retired
channel's lane ends in RUN like any other; the channel stays retired and carries nothing (DESIGN CHOICE, log entry 67). -/
def actFurther (s : State) (l : Nat) : State :=
  let x := s.lane l
  match x.st with
  | .announce | .fallback => s.toAgree l
  | .agree => match x.prop with | some _ => s.toSwitch l x.rung | none => s.toRun l
  | .verify => (s.modLane l (fun x => { x with passed := x.passed ++ [x.step] })).toAgree l
  | _ => s

/-- Judge the leaving condition of the lane's state from what it has counted. -/
def ladderEval (s : State) (l : Nat) : State :=
  let x := s.lane l
  match x.st with
  | .announce => if x.lock ∧ 16 ≤ x.count then s.setFurther l else s
  | .agree => if 16 ≤ x.count then s.setFurther l else s
  | .train =>
    if s.lnFixed l then (if x.lock ∧ x.adapt then s.toRun l else s)
    else if x.lock ∧ x.adapt ∧ 256 ≤ x.count then s.toVerify l else s
  | .verify => if x.windowClean ∧ 16 ≤ x.count then s.setFurther l else s
  | .fallback => if x.returning ∧ 16 ≤ x.count then s.setFurther l else s
  | _ => s

/-- A ladder timeout that has passed acts (R141, R146, R147, R150); the 16 further blocks and the 16 FAIL blocks end. -/
def ladderDue (s : State) (l : Nat) : State :=
  let x := s.lane l
  let past := fun t => decide (x.enteredAt + t ≤ s.now)
  let due := match x.further with | some t => decide (t ≤ s.now) | none => false
  if due then s.actFurther l
  else match x.st with
  | .agree =>
    if past agreeTmo then s.timeoutAnnounce l
    else if x.lastValid + quietTmo ≤ s.now then
      if x.step ∈ x.passed then s.toFallback l x.step else s.timeoutAnnounce l
    else s
  | .switch =>
    if past synthTmo ∧ !x.synth then
      if s.lnFixed l then (s.addRestart l).toSwitch l x.step else s.toFallback l x.rung
    else s
  | .train =>
    if past trainTmo then (if s.lnFixed l then (s.addRestart l).toTrain l else s.toFallback l x.step) else s
  | .verify => if past verifyTmo then s.toFallback l x.step else s
  | .fallback =>
    if past verifyTmo then s.timeoutAnnounce l
    else if !x.returning ∧ past (blocks16 x.step) then s.fallbackReturn l
    else if x.returning ∧ x.retuning ∧ x.retunedAt + synthTmo ≤ s.now then s.timeoutAnnounce l
    else s
  | _ => s

/-- A valid block in AGREE: DONE before PROPOSE, the lower of two rungs, 16 of the word counted (R147). Blocks among the 16
further ones are judged too: a DONE ends the PROPOSE that was about to switch (R579). -/
def agreeBlock (s : State) (l code rung : Nat) : State :=
  let x0 := s.lane l
  let turns := x0.further.isSome && x0.prop.isSome && decide (code = 4)
  let x := if turns then { x0 with further := none } else x0
  if x.further.isSome then
    if code = 1 then s.modLane l (fun x => { x with rung := min x.rung rung }) else s
  else
    let done := x.sendDone || decide (code = 4)
    let p := if done then none else s.proposal l
    let x1 := if p = x.prop then { x with sendDone := done }
      else { x with sendDone := done, prop := p, rung := p.getD x.step, count := 0 }
    let x2 := match p with
      | some _ => if code = 1 then { x1 with count := x1.count + 1, rung := min x1.rung rung } else { x1 with count := 0 }
      | none => if code = 4 then { x1 with count := x1.count + 1 } else { x1 with count := 0 }
    ((s.setLane l x2).sendAgree l p).ladderEval l

/-- A valid block of state code and rung reaches the lane. -/
def validBlock (s : State) (l code rung : Nat) : State :=
  let st := (s.lane l).st
  if code = 5 ∧ !s.lnFixed l ∧ (st = .agree ∨ st = .train ∨ st = .verify) then s.toFallback l rung
  else match st with
  | .agree => s.agreeBlock l code rung
  | .verify =>
    let hit := decide (code = 3) || decide (code = 1) || decide (code = 4)
    (s.modLane l (fun x => { x with count := if hit then x.count + 1 else 0 })).ladderEval l
  | .announce | .train | .fallback => (s.modLane l (fun x => { x with count := x.count + 1 })).ladderEval l
  | _ => s

/-- A block that is not valid: runs of equal blocks start again, and any error restarts the VERIFY window,
also among the 16 further blocks (R144, R147, R579). -/
def badBlock (s : State) (l : Nat) (err : Bool) : State :=
  let x := s.lane l
  match x.st with
  | .train => s
  | .verify =>
    let s1 := s.modLane l (fun x => { x with count := 0 })
    if err then
      (s1.modLane l (fun x => { x with windowClean := false, windowStart := s.now, further := none })).sendCap l 2 x.step
    else s1
  | _ => s.modLane l (fun x => { x with count := 0 })

/-- The states in which the receiver reads ladder blocks. -/
def readsBlocks (st : Ladder) : Bool :=
  match st with
  | .switch | .run | .loop => false
  | _ => true

/-! ### Commands (R151, R154, R157, R161) -/

/-- The width of a lane word (R142). -/
def lnWidth (s : State) (l : Nat) : Nat :=
  match s.rf (aCh l) 13 12 with | 0 => if (s.lane l).step ≤ 4 then 80 else 66 | _ => 64

/-- LANE_SLIP: the word that straddles the move is not valid to the channel (R161). -/
def opLaneSlip (s : State) (lane slip dir : Word) : OpRes :=
  let l := lane.toNat
  if 143 < l ∨ slip.toNat < 1 ∨ 63 < slip.toNat ∨ 1 < dir.toNat ∨ !s.rb (aLane l) 13 then opRefuse s 0x02
  else
    let w := s.lnWidth l
    let s1 := s.modLane l (fun x => { x with
      boundary := (x.boundary + (if dir = 0 then slip.toNat else w - slip.toNat % w)) % w,
      straddle := decide (x.st = .run) && decide (s.rf (aCh l) 13 12 = 2), alignStart := s.now })
    let s2 := s1.modChan l (fun c => { c with rx := c.rx.map (fun r => { r with bad := true }) })
    opDone (s2.setRb (aLane l + 0x3C) 31 false) []

/-- EYE_SCAN: its checks, then the scan starts (R157). -/
def opEyeScan (s : State) (lane phase volt dwell : Word) : OpRes :=
  let l := lane.toNat
  let d := fld dwell 5 0
  let x := s.lane l
  if 143 < l ∨ fld phase 15 8 ≠ 0 ∨ fld volt 15 8 ≠ 0 ∨ 64 ≤ dwell.toNat then opRefuse s 0x02
  else if !axisOk phase (-32) 31 ∨ !axisOk volt (-63) 63 ∨ d < 16 ∨ 40 < d then opRefuse s 0x27
  else if (x.st ≠ .run ∧ x.st ≠ .hold ∧ x.st ≠ .loop) ∨ !x.lock then opRefuse s 0x11
  else if (s.scan (l / 4)).isSome then opRefuse s 0x30
  else
    let b := aQuad (l / 4) + 0x400
    let s1 := s.setReg b (resStart (s.reg b))
    opDone (s1.setScan (l / 4) (some { lane := l, phase := phase, volt := volt, dwell := d, step := x.step, startedAt := s.now }))
      [w32 b]

/-- LOOPBACK (R154). In service it is refused whatever its kind, kind 0 on a lane that is not in LOOP among them: the rule gives that
case DONE in one sentence and 0x26 in another (DESIGN CHOICE, log entry 90). A change of the loop starts the PRBS checker anew
(R155). -/
def opLoopback (s : State) (lane kind : Word) : OpRes :=
  let l := lane.toNat
  let k := kind.toNat
  if 143 < l ∨ 3 < k ∨ (k ≠ 0 ∧ 10 < s.lnLoopStep l) then opRefuse s 0x02
  else if s.inService l then opRefuse s 0x26
  else
    let x := s.lane l
    if k = 0 then
      if x.st ≠ .loop then opDone s []
      else
        let s1 := s.modLane l (fun x => { x with loopKind := 0 })
        match x.loopReturn with
        | .hold => opDone (((s1.retune l x.heldStep true).toHold l)) []
        | _ => opDone ((s1.retune l x.heldStep true).toOff l) []
    else if x.st = .loop ∧ x.loopKind = k ∧ x.loopStep = s.lnLoopStep l then opDone s []
    else
      let ret : Ladder := if s.chEn l then .hold else .off
      let s1 := if x.st = .loop then s.scanAbort l
        else (s.ladderGo l .loop).modLane l (fun y => { y with loopReturn := ret, heldStep := x.step })
      opDone ((s1.retune l (s.lnLoopStep l) true).modLane l (fun y => { y with
        loopKind := k, loopStep := s.lnLoopStep l, chkFill := 0 })) []

/-- LADDER_RESTART (R151). -/
def opLadderRestart (s : State) (ch step : Word) : OpRes :=
  let l := ch.toNat
  let n := step.toNat
  let x := s.lane l
  if 143 < l ∨ 10 < n ∨ s.lnMax l < n then opRefuse s 0x02
  else if !s.lnFixed l ∧ n ≠ 0 ∧ (!x.heard ∨ !bit x.cap (16 + n)) then opRefuse s 0x13
  else
    match x.st with
    | .loop => opRefuse s 0x26
    | .off => opDone (s.setRf (aLane l) 3 0 n) []
    | _ =>
      let s1 := (s.setRf (aLane l) 3 0 n).scanAbort l
      if s.lnFixed l then opDone ((s1.climb l (s.lnFixStep l)).toSwitch l (s.lnFixStep l)) []
      else opDone ((s1.climb l n).toAnnounce l n) []

end State

open State

/-! ### Events -/

/-- LADDER_BLOCK_RECEIVED: a received block is judged and counted (R144, R146, R147, R579). -/
def execLadderBlockReceived (l : Nat) (cap : Word) (check : Byte) (codeErr : Bool) (dt : Nat) (s : State) : Out :=
  unitEvent (decide (l < 144)) dt s (fun s =>
    let s1 := s.ladderDue l
    if !s1.domainOn (quadId (l / 4)) ∨ !readsBlocks (s1.lane l).st then s1
    else
      let err := codeErr || decide (crc8 cap ≠ check)
      if err ∨ fld cap 31 28 = 0 ∨ bit cap 27 then s1.badBlock l err
      else
        let s2 := s1.modLane l (fun x => { x with cap := cap, heard := true, lastValid := s.now, sig := true })
        if s.lnFixed l then s2 else s2.validBlock l (fld cap 15 12) (fld cap 11 8))

/-- LADDER_TIMEOUT: a timeout of the lane's state has passed (R141, R146, R147, R150). -/
def execLadderTimeout (l dt : Nat) (s : State) : Out :=
  unitEvent (decide (l < 144)) dt s (fun s => s.ladderDue l)

/-- NO_PARTNER: ANNOUNCE has lasted 100 ms (R146). -/
def execNoPartner (l dt : Nat) (s : State) : Out :=
  unitEvent (decide (l < 144)) dt s (fun s =>
    let x := s.lane l
    if x.st = .announce ∧ x.enteredAt + noPartnerTmo ≤ s.now then s.modLane l (fun x => { x with noPartner := true }) else s)

/-- VERIFY_WINDOW_CLEAN: 1 ms of VERIFY without an error; the lane sends READY (R146). -/
def execVerifyWindowClean (l dt : Nat) (s : State) : Out :=
  unitEvent (decide (l < 144)) dt s (fun s =>
    let s1 := s.ladderDue l
    let x := s1.lane l
    if x.st = .verify ∧ !x.windowClean ∧ x.windowStart + verifyWin ≤ s.now then
      ((s1.modLane l (fun x => { x with windowClean := true })).sendCap l 3 x.step).ladderEval l
    else s1)

/-- SYNTH_LOCK: the transmit synthesiser locks; in SWITCH the lane goes on to TRAIN (R140, R141). -/
def execSynthLock (l dt : Nat) (s : State) : Out :=
  unitEvent (decide (l < 144)) dt s (fun s =>
    let s1 := s.ladderDue l
    if (s1.lane l).st = .off ∨ !(s1.pll (8 + l / 36)).lock then s1
    else
      let s2 := s1.modLane l (fun x => { x with synth := true, retuning := false })
      if (s2.lane l).st = .switch then s2.toTrain l else s2)

/-- ADAPTATION_SETTLED: in TRAIN the receiver has recovered the clock and adaptation has settled at the given equaliser
values, held ones kept (R146, R150, R153). In MODE 0b01 adaptation goes on after TRAIN while the receiver has lock, and the
row gives its values then. -/
def execAdaptationSettled (l : Nat) (vals : List Word) (dt : Nat) (s : State) : Out :=
  unitEvent (decide (l < 144)) dt s (fun s =>
    let s1 := s.ladderDue l
    if (s1.lane l).st = .train then
      (s1.modLane l (fun x => { x with
        adapt := true, lock := true, sig := true, eq := s1.adaptEq l x.eq vals })).ladderEval l
    else if s1.rf (aLane l + 0x14) 1 0 = 1 ∧ (s1.lane l).lock then
      s1.modLane l (fun x => { x with eq := s1.adaptEq l x.eq vals })
    else s1)

/-- EYE_SCAN_END: the scan of quad q finishes, or ends in error after the points given (R158-R160, R190). -/
def execEyeScanEnd (q : Nat) (err : Bool) (counts : List Nat) (dt : Nat) (s : State) : Out :=
  unitEvent (decide (q < 36)) dt s (fun s =>
    match s.scan q with
    | none => s
    | some x =>
      if err then s.scanFinish q x true ((counts.take (scanPoints x)).map eyeCode)
      else if x.startedAt + scanPoints x * pointPs x ≤ s.now ∧ counts.length = scanPoints x then
        s.scanFinish q x false (counts.map eyeCode)
      else s)

/-- Received words that match the alignment pattern: the low W bits of the pattern for word width W; of a word wider than the
64-bit pattern the low 64 bits count (R162; the latter DESIGN CHOICE, log entry 68). -/
def State.alignMatches (s : State) (l : Nat) (words : List Nat) : Nat :=
  let pat := (s.reg (aLane l + 0x38)).toNat * 2 ^ 32 + (s.reg (aLane l + 0x34)).toNat
  let m := 2 ^ min 64 (s.lnWidth l)
  words.countP (fun w => decide (w % m = pat % m))

/-- ALIGN_WINDOW_END: a window of 1,024 received words ends (R162). -/
def execAlignWindowEnd (l : Nat) (words : List Nat) (dt : Nat) (s : State) : Out :=
  unitEvent (decide (l < 144)) dt s (fun s =>
    let x := s.lane l
    if x.lock ∧ words.length = 1024 ∧ x.alignStart + bitsPs (1024 * s.lnWidth l) x.step ≤ s.now then
      (s.setReg (aLane l + 0x3C) (flag 31 true ||| w32 (s.alignMatches l words))).modLane l
        (fun x => { x with alignStart := s.now })
    else s)

/-- RECEIVE_LOCK_CHANGE: a lane outside RUN gains or loses receive clock recovery (R149, R158). -/
def execReceiveLockChange (l : Nat) (lock : Bool) (dt : Nat) (s : State) : Out :=
  unitEvent (decide (l < 144)) dt s (fun s =>
    let s1 := s.ladderDue l
    let x := s1.lane l
    if x.st = .run ∨ x.st = .switch ∨ (x.st = .loop ∧ x.loopKind = 2) then s1
    else if lock then (s1.modLane l (fun x => { x with lock := true, sig := true })).ladderEval l
    else
      let s2 := s1.scanAbort l
      State.fresh (s2.modLane l (fun x => { x with lock := false, sig := Config.freeBit s2.freeCtr })))

end Sys2Proof.Machine
end

