-- ==== Sys2Proof/Machine/Dram.lean ====
section
/-!
DEFINITION. The LPDDR5X controllers (R396-R418) and the encryption of their lines (R425-R427): lines as stored,
reads and writes, training, tracking, temperature, the window.
-/
namespace Sys2Proof.Machine

open Sys2Proof

/-- Controller clock of a rate code in kHz; none reserved (R398). -/
def dramClock (rate : Nat) : Option Nat :=
  match rate with
  | 0 => some 400000 | 1 => some 533250 | 2 => some 800000 | 3 => some 937500 | 4 => some 1066625 | 5 => some 1200000
  | _ => none

namespace State

/-- Change bytes the manual leaves open: n bytes, each fresh. -/
def freeBytes (s : State) (n : Nat) : List Byte × State :=
  ((List.range n).map (fun k => (Config.freeWord (s.freeCtr + k)).setWidth 8), { s with freeCtr := s.freeCtr + n })

/-- Words the manual leaves open, each fresh. -/
def freeWords (s : State) (n : Nat) : List Word × State :=
  ((List.range n).map (fun k => Config.freeWord (s.freeCtr + k)), { s with freeCtr := s.freeCtr + n })

/-! ### Capacity and lines (R396, R399-R401) -/

/-- Channel pages (R396). -/
def drPages (s : State) (d : Nat) : Nat :=
  229376 * (if s.rf (aDram d + 0xC) 5 4 = 0 then 1 else 2) * (if s.rb (aDram d + 0xC) 3 then 2 else 1)

/-- Usable bytes of a channel. -/
def drBytes (s : State) (d : Nat) : Nat := s.drPages d * 4096

/-- SPILL_EN of a channel's ridge. -/
def drSpill (s : State) (d : Nat) : Bool := s.rb (aOrc (d / 4)) 1

/-- A page of the channel is retired and the retirement has taken effect. -/
def drRetired (s : State) (d page : Nat) : Bool := (s.dr d).retired.any (fun r => decide (r.page = page) && !r.pending)

end State

/-- The line word d x 2^28 + L (R401, R425). -/
def lineWord (d l : Nat) : Nat := d * 2 ^ 28 + l

/-! ### Where a line lies in its devices (R399, R400) -/

/-- The row index of a line, and its position in the row. -/
def lineRow (l : Nat) : Nat := l / 28
def linePos (l : Nat) : Nat := l % 28

/-- Bank group, bank in the group, rank and device row of a line, with one rank or two. -/
def linePlace (twoRanks : Bool) (l : Nat) : Nat × Nat × Nat × Nat :=
  let r := lineRow l
  (r % 16 % 4, r % 16 / 4, if twoRanks then r / 16 % 2 else 0, if twoRanks then r / 32 else r / 16)

/-- The first data byte and the first check byte of a line in its 2,048-byte row. -/
def lineDataAt (l : Nat) : Nat := 64 * linePos l
def lineCheckAt (l : Nat) : Nat := 1792 + 8 * linePos l

/-- The unencrypted TAG of a line (R401). -/
def lineTag (d l : Nat) (data : List Byte) : Word := crc32c (data ++ wordBytes (w32 (lineWord d l)))

/-- A line written without encryption: data, code and TAG. -/
def plainLine (d l : Nat) (data : List Byte) : Line :=
  let tag := lineTag d l data
  { data := data, check := Config.rsCheck (data ++ wordBytes tag), tag := tag, written := true }

/-- The TAG of an encrypted line: CMAC of tweak and ciphertext under the data key (R426). -/
def encTag (d l : Nat) (dataKey cipher : List Byte) : Word :=
  w32 (Crypto.beNum ((Crypto.cmac (Crypto.ofBytes dataKey)
    (Crypto.leBytes 16 (lineWord d l) ++ Crypto.ofBytes cipher)).take 4))

/-- The XTS transform of a line under a key pair (R425). -/
def lineXts (dec : Bool) (d l : Nat) (dataKey tweakKey data : List Byte) : List Byte :=
  Crypto.toBytes (Crypto.xts dec (Crypto.ofBytes dataKey) (Crypto.ofBytes tweakKey) (lineWord d l) (Crypto.ofBytes data))

/-- A line written with encryption. -/
def cipherLine (d l : Nat) (dataKey tweakKey data : List Byte) : Line :=
  let c := lineXts false d l dataKey tweakKey data
  let tag := encTag d l dataKey c
  { data := c, check := Config.rsCheck (c ++ wordBytes tag), tag := tag, written := true, enc := true }

namespace State

/-- The line as stored; one the training fill wrote holds zeros, a valid code and an unencrypted TAG (R408). -/
def drLine (s : State) (d l : Nat) : Line :=
  let x := Table.get (fun _ => {}) (s.dr d).lines l
  if x.written then x else plainLine d l x.data

/-- Store a line. -/
def drPut (s : State) (d l : Nat) (x : Line) : State :=
  s.modDr d (fun c => { c with lines := Table.set (fun _ => {}) c.lines l x })

/-- Spill one line: encrypted under the pair (k, k + 1) when asked (R425). -/
def drSpillLine (s : State) (d l : Nat) (key : Option Nat) (data : List Byte) : State :=
  s.drPut d l (match key with
    | some k => cipherLine d l (s.keySlot k).key (s.keySlot (k + 1)).key data
    | none => plainLine d l data)

/-- The code passed or corrected, or reported uncorrectable: counters, flags and log (R402). -/
def drCode (s : State) (d l : Nat) (got : Upset) : State :=
  match got with
  | .clean | .forged => s
  | .corrected | .miscorrected => (s.addCnt (aDram d + 0x20) 1).logEvent 0x01 (dramId d) (w32 (64 * l)) 0 0
  | .uncorrectable =>
    ((s.addCnt (aDram d + 0x24) 1).setRb (aDram d + 8) 26 true).logEvent 0x02 (dramId d) (w32 (64 * l)) 0 0

/-- A pager fetch of one line: the bytes delivered and whether they are marked uncorrectable. A tag failure of an
encrypted line stops the device (R402, R427); it fails where the line read is not the line written; of a plain line it is treated as uncorrectable. Data that the code cannot correct are bytes the model leaves open. -/
def drFetchLine (s : State) (d l : Nat) (key : Option Nat) (got : Upset) : List Byte × Bool × State :=
  let x := s.drLine d l
  let s1 := s.drCode d l got
  if got = .uncorrectable then
    let (bs, s2) := s1.freeBytes 64
    (bs, true, s2)
  else
    match x.enc, key with
    | true, some k =>
      if got ≠ .forged ∧ got ≠ .miscorrected ∧ encTag d l (s.keySlot k).key x.data = x.tag then
        (lineXts true d l (s.keySlot k).key (s.keySlot (k + 1)).key x.data, false, s1)
      else (x.data, true, s1.integrityStop 1 k (dramId d) (w32 (64 * l)))
    | true, none => (x.data, false, s1)
    | false, _ =>
      if got ≠ .forged ∧ got ≠ .miscorrected ∧ lineTag d l x.data = x.tag then (x.data, false, s1)
      else (x.data, true, ((s1.drCode d l .uncorrectable).addCnt (aDram d + 0x28) 1).setRb (aDram d + 8) 25 true)

/-! ### Enable and disable (R407, R414) -/

/-- The channel consistency tests on the present registers. -/
def drCheck (s : State) (d : Nat) : Byte × Nat :=
  let p := if d < 8 then 12 else 13
  let cfg := s.reg (aDram d + 0xC)
  let n := s.rf (aPll p + 0xC) 31 24
  let f := s.rf (aPll p + 0xC) 23 0
  let div := s.rf (aPll p + 0x10) 7 0
  let out := if div = 0 then 0 else outHz (s.refFreq (s.pllRef p)) n f div
  let rateOk := match dramClock (fld cfg 11 8) with
    | none => false
    | some k => decide ((if out < k * 1000 then k * 1000 - out else out - k * 1000) ≤ k)
  let peers := (List.range 4).any (fun j =>
    let e := d / 4 * 4 + j
    decide (e ≠ d) && s.drEn e && decide ((s.reg (aDram e + 0xC)) &&& 0xF38 ≠ cfg &&& 0xF38))
  firstFail [
    (!(s.pll p).lock, 0x11, 0),
    (decide (1 < fld cfg 5 4) || !rateOk || peers, 0x02, 0xC),
    (!s.gateOpen (dramId d), 0x07, 0)]

/-- Contents, training, retirement list and counters are lost (R414). -/
def drLose (s : State) (d : Nat) : State :=
  let a := aDram d
  [a + 0x10, a + 0x20, a + 0x24, a + 0x28, a + 0x2C].foldl (fun (s : State) r => s.setReg r 0) (s.setDr d {})

/-- Something that is read periodically is due, its first time at once; and when it is due next (R411, R413). -/
def due (t : Option Nat) (now : Nat) : Bool := (t.map (fun t => decide (t ≤ now))).getD true
def dueNext (t : Option Nat) (period now : Nat) : Nat :=
  match t with | some t => t + ((now - t) / period + 1) * period | none => now + period

/-- A write to DR_CTRL; the oscillators are read from the first time again when TRACK_EN rises (R411). -/
def drCtrlWrite (s : State) (d : Nat) (v : Word) : WRes :=
  let a := aDram d
  let was := s.drEn d
  let en := bit v 0
  if en ∧ !was then
    let c := s.drCheck d
    let s1 := s.recordCheck (a + 4) c.1 c.2
    if c.1 ≠ 0 then (s1, c.1) else ((s1.setReg a (v &&& 7)).setDr d { ({} : Dram) with powered := true }, 0)
  else if was ∧ !en then
    if s.drSpill d then (s, 0x30) else ((s.drLose d).setReg a (v &&& 7), 0)
  else
    (if bit v 2 ∧ !s.rb a 2 then (s.setReg a (v &&& 7)).modDr d (fun c => { c with trackDue := none })
     else s.setReg a (v &&& 7), 0)

/-! ### Training and helpers (R408-R410) -/

/-- Registers a training sets: 16 read delays, 16 write delays, DR_VREF. -/
def delayRegs (d : Nat) : List Nat :=
  (List.range 16).map (fun k => aDram d + 0x200 + 4 * k) ++ (List.range 16).map (fun k => aDram d + 0x240 + 4 * k) ++
    [aDram d + 0x280]

/-- Training of this phase is allowed in BOOT, STAGING and DRAIN (R408, R410). -/
def drMode (s : State) : Bool := decide (s.mode = .boot) || decide (s.mode = .staging) || decide (s.mode = .drain)

/-- START: firmware training of other channels starts from the seed of D0 or D8 (R408, R409). -/
def drStart (s : State) (d : Nat) : WRes :=
  let x := s.dr d
  let bad := firstRefusal [
    (!s.drMode, 0x05),
    (s.drSpill d || x.training || !x.initDone, 0x30)]
  if bad ≠ 0 then (s, bad)
  else
    let seedCh := d / 8 * 8
    let s1 := if d = seedCh then s
      else (List.zip (delayRegs d) (delayRegs seedCh)).foldl (fun (t : State) r =>
        t.setReg r.1 (if (s.dr seedCh).trained then s.reg r.2 else resetWord r.1)) s
    ((s1.modDr d (fun c => { c with trained := false, training := true })).setReg (aDram d + 0x50)
      (resStart (s1.reg (aDram d + 0x50))), 0)

/-- Training and fill end (R410). A channel other than D0 and D8 keeps the seed's Vref-DQ (R408, steps 4 and 5). -/
def drTrained (s : State) (d fail rdEye wrEye : Nat) (delays : List Nat) : State :=
  let a := aDram d
  let seed := s.reg (a + 0x280) &&& 0x7F
  let s0 := (List.zip (delayRegs d) delays).foldl (fun (t : State) r => t.setReg r.1 (w32 r.2 &&& (specAt r.1).rw)) s
  let s1 := if d % 8 = 0 then s0 else s0.setReg (a + 0x280) ((s0.reg (a + 0x280) &&& 0x7F00) ||| seed)
  let s2 := (((s1.setReg (a + 0x54) (w32 fail)).setReg (a + 0x58) (w32 rdEye)).setReg (a + 0x5C) (w32 wrEye)).setReg
    (a + 0x50) (resDone (s1.reg (a + 0x50)) (decide (fail ≠ 0)))
  if fail = 0 then s2.modDr d (fun c => { c with training := false, trained := true, lines := [], drift := 0 })
  else (s2.modDr d (fun c => { c with training := false })).logEvent 0x35 (dramId d) (w32 fail) 0 0

/-- A write to DR_CMP_CTRL: the pattern compare runs with GO, and `errs` are the errors found per DQ bit (R410). -/
def drCompare (s : State) (d : Nat) (v : Word) (errs : List Word) : WRes :=
  let a := aDram d
  if bit v 0 then
    let bad := firstRefusal [
      (!s.drMode, 0x05),
      (decide (fld v 2 1 = 3) || decide (fld v 31 16 = 0), 0x02),
      (!(s.dr d).initDone || (s.dr d).training, 0x30)]
    if bad ≠ 0 then (s, bad)
    else
      let s1 := s.setReg (a + 0x140) (v &&& 0xFFFF000E)
      let s2 := (List.range 16).foldl (fun (t : State) k => t.setReg (a + 0x148 + 4 * k) (errs.getD k 0)) s1
      (s2.setReg (a + 0x144) (resDone (s.reg (a + 0x144)) false), 0)
  else (s.setReg (a + 0x140) (v &&& 0xFFFF000E), 0)

/-! ### The window (R418) -/

/-- The line DR_WIN_ADDR selects. -/
def drWinLine (s : State) (d : Nat) : Nat := (s.reg (aDram d + 0x400)).toNat / 64

/-- A window read: stored bytes as they stand; where they are not the bytes written, words the model leaves open. ERR is set where the
code finds an error; no tag is checked. -/
def drWinRead (s : State) (d : Nat) (got : Upset) : WRes :=
  let a := aDram d
  let l := s.drWinLine d
  let bad := firstRefusal [
    (!(s.dr d).trained, 0x19),
    (decide (s.drBytes d ≤ 64 * l), 0x02)]
  if bad ≠ 0 then (s, bad)
  else
    let x := s.drLine d l
    let (ws, s1) := if got = .clean then (toWords x.data ++ [x.check, x.tag], s) else s.freeWords 18
    let err := decide (got ≠ .clean) && decide (got ≠ .forged)
    let s2 := (List.range 18).foldl (fun (t : State) k => t.setReg (a + 0x484 + 4 * k) (ws.getD k 0)) s1
    (s2.setReg (a + 0x480) (resDone (s.reg (a + 0x480)) err), 0)

/-- A window write. -/
def drWinWrite (s : State) (d : Nat) : WRes :=
  let l := s.drWinLine d
  let bad := firstRefusal [
    (!(s.dr d).trained, 0x19),
    (decide (s.drBytes d ≤ 64 * l), 0x02),
    (s.drSpill d, 0x30)]
  if bad ≠ 0 then (s, bad)
  else
    let data := (List.range 16).flatMap (fun k => wordBytes (s.reg (aDram d + 0x440 + 4 * k)))
    (s.drPut d l (plainLine d l data), 0)

/-- A write to DR_WIN_CMD; other codes do nothing. -/
def drWinCmd (s : State) (d : Nat) (v : Word) (got : Upset) : WRes :=
  match fld v 1 0 with
  | 1 => s.drWinRead d got
  | 2 => s.drWinWrite d
  | _ => (s, 0)

/-- A training helper (R410). -/
def isHelper (o : Nat) : Bool :=
  decide (0x100 ≤ o ∧ o ≤ 0x184) || decide (0x200 ≤ o ∧ o < 0x280) || decide (o = 0x280)

/-- Refreshes of a bank that are due and not served; each of them is postponed, up to 8 (R412), twice as many while the devices are
hot (R413). -/
def refreshOwed (s : State) (d bank : Nat) : Nat :=
  let x := s.dr d
  (s.now - x.refFrom) * (if x.hot then 2 else 1) / max 1 (Config.refreshInterval d) - Table.get (fun _ => 0) x.refreshed bank

/-- The devices of a channel work: powered, initialised, not in self-refresh. -/
def drWorks (s : State) (d : Nat) : Bool := s.drEn d && (s.dr d).initDone && !(s.dr d).selfRef

end State

open State

/-! ### Events -/

/-- INIT_DONE: power-up, mode registers and ZQ calibration are complete (R407). -/
def execInitDone (d dt : Nat) (s : State) : Out :=
  unitEvent (decide (d < 16)) dt s (fun s => if (s.dr d).powered then s.modDr d (fun c => { c with initDone := true, refFrom := s.now, refreshed := [] }) else s)

/-- TRAINING_END (R410). -/
def execTrainingEnd (d fail rdEye wrEye : Nat) (delays : List Nat) (dt : Nat) (s : State) : Out :=
  unitEvent (decide (d < 16)) dt s (fun s => if (s.dr d).training then s.drTrained d fail rdEye wrEye delays else s)

/-- REFRESH: a per-bank refresh that is due is served; of a bank with 8 postponed it is served at rank 1 and counted (R412). -/
def execRefresh (d bank : Nat) (late : Bool) (dt : Nat) (s : State) : Out :=
  unitEvent (decide (d < 16 ∧ bank < 16)) dt s (fun s =>
    let owed := s.refreshOwed d bank
    if s.drWorks d ∧ owed ≠ 0 ∧ late = decide (8 ≤ owed) then
      let s1 := s.modDr d (fun x => { x with
        refreshed := Table.set (fun _ => 0) x.refreshed bank (Table.get (fun _ => 0) x.refreshed bank + 1) })
      if late then s1.addCnt (aDram d + 0x2C) 1 else s1
    else s)

/-- TEMPERATURE_READ: every 4 ms, the codes of both ranks, and whether any reports more than 85 °C (R413). -/
def execTemperatureRead (d t0 t1 : Nat) (hot : Bool) (dt : Nat) (s : State) : Out :=
  unitEvent (decide (d < 16)) dt s (fun s =>
    if s.drWorks d ∧ due (s.dr d).tempDue s.now then
      let s0 := s.modDr d (fun c => { c with tempDue := some (dueNext c.tempDue 4000000000 s.now) })
      let s1 := s0.setReg (aDram d + 0x10) (w32 (t0 % 8 + t1 % 8 * 256))
      let x := s1.dr d
      if hot then
        let s2 := s1.setDr d (if x.hot then { x with coolReads := 0 } else
          { x with hot := true, coolReads := 0, refFrom := s1.now, refreshed := [] })
        if x.hot then s2 else s2.logEvent 0x33 (dramId d) (s2.reg (aDram d + 0x10)) 0 0
      else if x.hot then
        if 1 ≤ x.coolReads then s1.setDr d { x with hot := false, coolReads := 0, refFrom := s1.now, refreshed := [] }
        else s1.setDr d { x with coolReads := x.coolReads + 1 }
      else s1
    else s)

/-- A delay moved by the drift; a delay that leaves its field is left open. -/
def movedDelay (s : State) (r : Nat) (drift : Int) : State :=
  let x := ((s.reg r).toNat : Int) + drift
  if 0 ≤ x ∧ x < 128 then s.setReg r (BitVec.ofInt 32 x)
  else (s.setReg r (Config.freeWord s.freeCtr &&& 0x7F)).fresh

/-- OSCILLATOR_TRACKING: every 100 ms all read and write delays move by the drift in 1/64 UI; more than 8/64 UI since training is
logged (R411). -/
def execOscillatorTracking (d : Nat) (drift : Int) (dt : Nat) (s : State) : Out :=
  unitEvent (decide (d < 16)) dt s (fun s =>
    if s.drWorks d ∧ s.rb (aDram d) 2 ∧ due (s.dr d).trackDue s.now then
      let s1 := ((delayRegs d).take 32).foldl (fun (t : State) r => movedDelay t r drift) s
      let sum := (s1.dr d).drift + drift
      let s2 := s1.modDr d (fun c => { c with drift := sum, trackDue := some (dueNext c.trackDue 100000000000 s.now) })
      if 8 < sum.natAbs then s2.logEvent 0x34 (dramId d) (BitVec.ofInt 32 sum) 0 0 else s2
    else s)

/-- DRAM_PATROL_READ: a usable line is read, once per 12 h, and a correction written back; no tag is checked (R427, R497, R417). -/
def execDramPatrolRead (d line : Nat) (got : Upset) (dt : Nat) (s : State) : Out :=
  unitEvent (decide (d < 16)) dt s (fun s =>
    let recent := (s.dr d).patrolled.filter (fun e => decide (s.now < e.2 + 43200 * 10 ^ 12))
    if s.drWorks d ∧ (s.dr d).trained ∧ s.rb (aDram d) 1 ∧ 64 * line < s.drBytes d ∧ !s.drRetired d (line / 64) ∧
        recent.all (fun e => decide (e.1 ≠ line)) then
      (s.modDr d (fun x => { x with patrolled := recent ++ [(line, s.now)] })).drCode d line got
    else s)

end Sys2Proof.Machine
end

