-- ==== Sys2Proof/Machine/Orchard.lean ====
section
/-!
DEFINITION. The Orchard (R220-R254, R501): cells, counter tree, admission, sources and sinks, pager, windows, audits.
-/
namespace Sys2Proof.Machine

open Sys2Proof

/-- Cells of a ridge pool (R220), bytes of a cell, cells of a page. -/
def poolCells : Nat := 49152
def inDram : Nat := 4

/-- The ridge of a queue (R28). -/
def queueRidge (q : Nat) : Nat := q / 16384

namespace OFrame

/-- Cells not yet released. -/
def left (f : OFrame) : List Nat := f.cells.drop f.freed

/-- Cells up to the first that lies in DRAM. -/
def headLen (f : OFrame) : Nat := (f.cells.takeWhile (fun c => decide (c ≠ inDram))).length

/-- Bytes of cell j. -/
def cellBytes (f : OFrame) (j : Nat) : List Byte := (f.bytes.drop (256 * j)).take 256

/-- Put bytes back into cell j, as many as it held. -/
def putCell (f : OFrame) (j : Nat) (bs : List Byte) : OFrame :=
  let n := (f.cellBytes j).length
  { f with bytes := f.bytes.take (256 * j) ++ bs.take n ++ f.bytes.drop (256 * j + n) }

end OFrame

namespace OQueue

/-- The cells of a queue in queue order (R238). -/
def cells (q : OQueue) : List Nat := q.frames.flatMap OFrame.left
def onChip (q : OQueue) : Nat := (q.cells.filter (fun c => decide (c ≠ inDram))).length
/-- Cells before the first page. -/
def headCells (q : OQueue) : Nat := (q.cells.takeWhile (fun c => decide (c ≠ inDram))).length
/-- Cells of the head segment: those before the first page that the sink has not yet read (R225, R238, R241). -/
def headLeft (q : OQueue) : Nat :=
  q.headCells - (match q.frames with | f :: _ => f.taken / 256 - f.freed | [] => 0)
/-- Cells after the last page. -/
def tailCells (q : OQueue) : Nat := (q.cells.reverse.takeWhile (fun c => decide (c ≠ inDram))).length

/-- The place of every cell: frame index and cell index, in queue order. -/
def refs (q : OQueue) : List (Nat × Nat) :=
  (List.range q.frames.length).flatMap (fun i =>
    match q.frames[i]? with
    | some f => (List.range (f.cells.length - f.freed)).map (fun k => (i, f.freed + k))
    | none => [])

/-- Change frame i. -/
def modFrame (q : OQueue) (i : Nat) (f : OFrame → OFrame) : OQueue :=
  { q with frames := (List.range q.frames.length).filterMap (fun k =>
      (q.frames[k]?).map (fun x => if k = i then f x else x)) }

end OQueue

namespace State

/-! ### Fields -/

def qClass (s : State) (q : Nat) : Nat := s.rf (aQueue q) 23 19
def qProfile (s : State) (q : Nat) : Nat := s.rf (aQueue q) 29 24
def qSink (s : State) (q : Nat) : Nat := s.rf (aQueue q) 18 17
def qHold (s : State) (q : Nat) : Bool := s.rb (aQueue q) 30
/-- Word k of the profile a queue names: MIN, XON, XOFF, MAX, HOT, STATIC. -/
def qPr (s : State) (q k : Nat) : Nat := s.rf (aProfile (queueRidge q) (s.qProfile q) + 4 * k) 27 0
def orcFetch (s : State) (r : Nat) : Nat := s.rf (aOrc r + 0x2C) 23 16
def orcCount (s : State) (r k n : Nat) : State := s.addCnt (aOrc r + 0x90 + 4 * k) n

/-- A queue that takes and gives frames: enabled, its ridge on. -/
def qLive (s : State) (q : Nat) : Bool := s.queueEn q && s.domainOn (ridgeId (queueRidge q))

/-! ### Pools (R227, R228) -/

/-- Every cell in use: the ridge of its queue and the pool it comes from. -/
def orcCells (s : State) : List (Nat × Nat) :=
  s.orc.queues.flatMap (fun e => e.2.cells.map (fun c => (queueRidge e.1, c))) ++
  s.orc.windows.flatMap (fun e => e.2.cells.map (fun c => (queueRidge e.2.queue, c))) ++
  s.orc.held.flatMap (fun h => h.cells.map (fun c => (queueRidge h.queue, c))) ++
  s.orc.feeds.flatMap (fun e => match e.2 with
    | some f => f.cells.map (fun c => (queueRidge f.queue, c))
    | none => [])

/-- ORC_FREE with further cells, not yet stored, taken. -/
def orcFreeLess (s : State) (extra : List Nat) (r : Nat) : Nat :=
  poolCells - (s.oridge r).retiredCells - (s.orcCells.filter (fun c => decide (c.2 = r))).length -
    (extra.filter (fun c => decide (c = r))).length
def orcFree (s : State) (r : Nat) : Nat := s.orcFreeLess [] r

/-- Cells lent by ridge r, and borrowed by its queues. -/
def orcLent (s : State) (r : Nat) : Nat := (s.orcCells.filter (fun c => decide (c.2 = r) && decide (c.1 ≠ r))).length
def orcBorrowed (s : State) (r : Nat) : Nat :=
  (s.orcCells.filter (fun c => decide (c.1 = r) && decide (c.2 ≠ r) && decide (c.2 ≠ inDram))).length

def borrowLow (s : State) (r : Nat) : Nat := s.rf (aOrc r + 0x18) 15 0
def lendFloor (s : State) (r : Nat) : Nat := s.rf (aOrc r + 0x18) 31 16

/-- Of two ridges the one with more free cells, the lower number on a tie. -/
def moreFree (frees : List Nat) (a b : Nat) : Nat := if frees.getD a 0 < frees.getD b 0 then b else a

/-- The ridge that gives the next cell of ridge r (R227), one that it can reach (R36). -/
def giver (s : State) (frees : List Nat) (r : Nat) : Option Nat :=
  let f := frees.getD r 0
  if 0 < f ∧ s.borrowLow r ≤ f then some r
  else
    match (List.range 4).filter (fun x => decide (x ≠ r) && s.domainOn (ridgeId x) &&
        !s.pathCut (groupPort (4 * r)) (groupPort (4 * x))) with
    | [] => none
    | x :: xs =>
      let b := xs.foldl (moreFree frees) x
      if s.lendFloor b < frees.getD b 0 then some b else none

/-- n cells for ridge r, one by one. -/
def allocCells (s : State) (r : Nat) : Nat → List Nat → Option (List Nat)
  | 0, _ => some []
  | n + 1, frees =>
    match s.giver frees r with
    | none => none
    | some x => (s.allocCells r n (frees.set x (frees.getD x 0 - 1))).map (fun cs => x :: cs)

/-- The free counts of the four pools. -/
def frees (s : State) (extra : List Nat) : List Nat := (List.range 4).map (s.orcFreeLess extra)

/-! ### The counter tree (R229-R233, R250) -/

def classNode (s : State) (r c : Nat) : CNode := Table.get (fun _ => {}) s.orc.classes (r * 32 + c)
def setClassNode (s : State) (r c : Nat) (v : CNode) : State :=
  { s with orc := { s.orc with classes := Table.set (fun _ => {}) s.orc.classes (r * 32 + c) v } }
def ridgeNode (s : State) (r : Nat) : CNode := Table.get (fun _ => {}) s.orc.ridgeNodes r
def setRidgeNode (s : State) (r : Nat) (v : CNode) : State :=
  { s with orc := { s.orc with ridgeNodes := Table.set (fun _ => {}) s.orc.ridgeNodes r v } }

/-! #### Untrusted nodes (R249-R252) -/

/-- The ridge of a node, its level and its log word. -/
def nodeRidge : TreeNode → Nat
  | .queue q => queueRidge q | .cls r _ => r | .ridge r => r | .device => 0
def nodeLevel : TreeNode → Nat
  | .queue _ => 0 | .cls _ _ => 1 | .ridge _ => 2 | .device => 3
def nodeWord (n : TreeNode) : Word :=
  at_ 30 (nodeLevel n) ||| at_ 28 (nodeRidge n) |||
  w32 (match n with | .queue q => q % 16384 | .cls _ c => c | .ridge _ => 0 | .device => 0)

/-- A node exists. -/
def nodeOk : TreeNode → Bool
  | .queue q => decide (q < 65536) | .cls r c => decide (r < 4 ∧ c < 32) | .ridge r => decide (r < 4) | .device => true

/-- The node's flag, with its fallback counter at 0. -/
def setUntrust (s : State) (n : TreeNode) (b : Bool) : State :=
  match n with
  | .queue q => s.modQueue q (fun x => { x with untrust := b, fallback := 0 })
  | .cls r c => s.setClassNode r c { s.classNode r c with untrust := b, fallback := 0 }
  | .ridge r => s.setRidgeNode r { s.ridgeNode r with untrust := b, fallback := 0 }
  | .device => { s with orc := { s.orc with device := { s.orc.device with untrust := b, fallback := 0 } } }

def nodeCount (s : State) : TreeNode → Nat
  | .queue q => (s.queue q).node | .cls r c => (s.classNode r c).count | .ridge r => (s.ridgeNode r).count
  | .device => s.orc.device.count

/-- The audit of the node at the head of the list starts. -/
def auditStart (s : State) : State :=
  match s.orc.audits with
  | [] => s
  | (n, _) :: _ => s.logEvent 0x15 (ridgeId (nodeRidge n)) (nodeWord n) 0 0

/-- Waiting audits in the order of levels, queue first. -/
def byLevel (l : List (TreeNode × Bool)) : List (TreeNode × Bool) :=
  (List.range 4).flatMap (fun k => l.filter (fun e => decide (nodeLevel e.1 = k)))

/-- A double-bit error marks a node untrusted; its audit starts or restarts (R250-R252). -/
def nodeBad (s : State) (n : TreeNode) (recoverable : Bool) : State :=
  let s1 := ((s.setUntrust n true).setRb (aOrc (nodeRidge n) + 8) 26 true).logEvent 0x14 (ridgeId (nodeRidge n)) (nodeWord n) 0 0
  match s1.orc.audits with
  | [] => ({ s1 with orc := { s1.orc with audits := [(n, recoverable)] } } : State).auditStart
  | (m, b) :: rest =>
    if m = n then ({ s1 with orc := { s1.orc with audits := (n, recoverable) :: rest } } : State).auditStart
    else if rest.any (fun e => decide (e.1 = n)) then s1
    else { s1 with orc := { s1.orc with audits := (m, b) :: byLevel (rest ++ [(n, recoverable)]) } }

/-- A counter node is read: a single-bit error is corrected, written back, counted and logged, a double-bit error marks the
node untrusted (R249, R250). -/
def meetNode (s : State) (n : TreeNode) : State :=
  match s.weakAt (.counterNode n) with
  | .corrected => ((s.mend (.counterNode n)).orcCount (nodeRidge n) 7 1).logEvent 0x01 (ridgeId (nodeRidge n)) (nodeWord n) 0 0
  | .uncorrectable => ((s.mend (.counterNode n)).fresh).nodeBad n (Config.freeBit s.freeCtr)
  | _ => s

/-- A decision or a release reads the four nodes over a queue. -/
def meetNodes (s : State) (q : Nat) : State :=
  if s.weak = [] then s
  else [.queue q, .cls (queueRidge q) (s.qClass q), .ridge (queueRidge q), .device].foldl meetNode s

/-- The node after n cells are charged; an untrusted node's fallback counter counts them too. -/
def chargeNode (n : Nat) (x : CNode) : CNode :=
  { x with count := x.count + n, fallback := if x.untrust then x.fallback + n else x.fallback }

/-- Charge n cells to a queue's nodes; XOFF is set at or above its threshold. -/
def charge (s : State) (q n : Nat) : State :=
  let r := queueRidge q
  let c := s.qClass q
  let x := s.queue q
  let s1 := s.setQueue q { x with
    node := x.node + n, fallback := if x.untrust then x.fallback + n else x.fallback,
    xoff := x.xoff || decide (s.qPr q 2 ≤ x.node + n) }
  let s2 := (s1.setClassNode r c (chargeNode n (s1.classNode r c))).setRidgeNode r (chargeNode n (s1.ridgeNode r))
  { s2 with orc := { s2.orc with device := chargeNode n s2.orc.device } }

/-- Release n cells; XOFF clears at or below its threshold. -/
def release (s0 : State) (q n : Nat) : State :=
  if n = 0 then s0
  else
    let s := s0.meetNodes q
    let r := queueRidge q
    let c := s.qClass q
    let x := s.queue q
    let s1 := s.setQueue q { x with node := x.node - n, xoff := x.xoff && !decide (x.node - n ≤ s.qPr q 1) }
    let cn := s1.classNode r c
    let rn := s1.ridgeNode r
    let s2 := (s1.setClassNode r c { cn with count := cn.count - n }).setRidgeNode r { rn with count := rn.count - n }
    { s2 with orc := { s2.orc with device := { s2.orc.device with count := s2.orc.device.count - n } } }

/-- One node's test: its limit, or the fallback limit while it is untrusted. -/
def nodeTest (untrust : Bool) (count fallback n limit static : Nat) : Bool :=
  if untrust then decide (fallback + n ≤ static) else decide (count + n ≤ limit)

/-- The admission test (R230, R250). -/
def admits (s : State) (q n : Nat) : Bool :=
  let r := queueRidge q
  let c := s.qClass q
  let x := s.queue q
  let cn := s.classNode r c
  let rn := s.ridgeNode r
  let dn := s.orc.device
  let trusted := !x.untrust && !cn.untrust && !rn.untrust && !dn.untrust
  (trusted && decide (x.node + n ≤ s.qPr q 0)) ||
  (nodeTest x.untrust x.node x.fallback n (s.qPr q 3) (s.qPr q 5) &&
   nodeTest cn.untrust cn.count cn.fallback n (s.rf (aOrc r + 0x404 + 8 * c) 27 0) (s.rf (aOrc r + 0x40) 27 0) &&
   nodeTest rn.untrust rn.count rn.fallback n (s.rf (aOrc r + 0x14) 27 0) (s.rf (aOrc r + 0x44) 27 0) &&
   nodeTest dn.untrust dn.count dn.fallback n (s.rf 0x4000C4 27 0) (s.rf 0x4000C8 27 0))

end State

/-- How an admission decision ends (R230, R234). -/
inductive Decision where
  | admitted (cells : List Nat)
  | refused
  | exhausted
deriving DecidableEq, Repr

namespace State

/-- The decision for n cells of queue q, beside cells the frame already has; refusals are counted. -/
def decideCells (s0 : State) (q n : Nat) (had : List Nat) : Decision × State :=
  let s := s0.meetNodes q
  let r := queueRidge q
  if !s.admits q n then (.refused, s.orcCount r 1 1)
  else match s.allocCells r n (s.frees had) with
    | none => (.exhausted, s.orcCount r 2 1)
    | some cs => (.admitted cs, s.charge q n)

/-- A frame's cells grow to `need`: `first` cells at its SOF, then one by one (R231). -/
def growCells (q first need : Nat) : Nat → List Nat → State → Bool × List Nat × State
  | 0, cells, s => (true, cells, s)
  | n + 1, cells, s =>
    if need ≤ cells.length ∧ cells ≠ [] then (true, cells, s)
    else
      match s.decideCells q (if cells = [] then first else 1) cells with
      | (.admitted cs, s1) => growCells q first need n (cells ++ cs) (if cells = [] then s1.orcCount (queueRidge q) 0 1 else s1)
      | (_, s1) => (false, cells, s1)

/-! ### Spill pages (R245, R403, R416) -/

/-- A spill page leaves use; a pending retirement of it takes effect. -/
def freePage (s : State) (r page : Nat) : State :=
  let o := s.oridge r
  let s1 := s.setORidge r { o with spillUsed := o.spillUsed.filter (fun p => decide (p ≠ page)) }
  let d := 4 * r + page % 4
  if (s1.dr d).retired.any (fun x => decide (x.page = page / 4) && x.pending) then
    ((s1.modDr d (fun c => { c with retired := c.retired.map (fun x =>
      if x.page = page / 4 then { x with pending := false } else x) })).countRetire).logEvent 0x11 (dramId d)
        (w32 (page / 4)) 0 0
  else s1

def freePages (s : State) (r : Nat) (ps : List Nat) : State := ps.foldl (fun (s : State) p => s.freePage r p) s

/-! ### Frames leave (R223, R229, R501) -/

/-- A cell whose data read uncorrectable leaves with its frame: retired, 256 at most in a ridge. -/
def retireCell (s : State) (r : Nat) : State :=
  let o := s.oridge r
  let idx := (Config.freeWord s.freeCtr) &&& 0xFFFF
  if o.retiredCells < 256 then
    ((s.setORidge r { o with retiredCells := o.retiredCells + 1 }).fresh).logEvent 0x12 (ridgeId r) idx 0 (o.retiredCells + 1)
  else s.fresh.logEvent 0x12 (ridgeId r) idx 0 0xFFFFFF

/-- The log entry of an error in a cell's data, which names the bank group; which group of its ridge holds a cell, and where,
is left open (R253). -/
def cellLog (ev owner q : Nat) (s : State) : State :=
  let r := if owner < 4 then owner else queueRidge q
  let w := (Config.freeWord s.freeCtr).toNat
  (s.fresh).logEvent ev (0x2400 + 4 * r + w % 4) (w32 (w / 4 % 12288)) 0 0

/-- Cells a to below b of frame i of queue q are read by a sink, a move or a spill: an error in them is corrected, which the stored
word keeps, or ends the frame with ABORT (R253, R486). -/
def cellsMeet (s : State) (q i a b : Nat) : State :=
  match (s.queue q).frames[i]? with
  | none => s
  | some f =>
    let hit := f.weak.filter (fun e => decide (a ≤ e.1 ∧ e.1 < b))
    if hit = [] then s
    else
      let lost := (hit.filter (fun e => decide (e.2 = .uncorrectable))).map (·.1)
      let s1 := s.modQueue q (fun x => x.modFrame i (fun y => { y with
        weak := y.weak.filter (fun e => !decide (e ∈ hit ∧ e.2 = .uncorrectable)), abort := y.abort || decide (lost ≠ []),
        badCells := lost.filter (fun j => !decide (j ∈ y.badCells)) ++ y.badCells }))
      hit.foldl (fun (s : State) e =>
        cellLog (if e.2 = .uncorrectable then 0x02 else 0x01) (f.cells.getD e.1 inDram) q s) s1

/-- Retire the bad cells of a frame among its cells from `a` to below `b`. -/
def retireCells (s : State) (f : OFrame) (a b : Nat) : State :=
  f.badCells.foldl (fun (s : State) j =>
    if a ≤ j ∧ j < b ∧ f.cells.getD j inDram < 4 then s.retireCell (f.cells.getD j 0) else s) s

/-- The queue posts its thread when it comes to hold a visible frame (pull with notify). -/
def notifyQueue (s : State) (q : Nat) (was : Bool) : State :=
  if s.qSink q = 2 ∧ !was ∧ (s.queue q).frames ≠ [] then
    s.presentPost (.queue q) (s.rf (aQueue q) 12 0) (w32 (0x30000000 + q))
  else s

/-- The pager's requests of a queue: it starts to spill at HOT, a complete run waits for a spill, a short head segment for
a fetch; it stops spilling with no page in DRAM and none to be written (R239, R241, R242). -/
def pagerCheck (s : State) (q : Nat) : State :=
  let r := queueRidge q
  let x := s.queue q
  let on := s.rb (aOrc r) 0 && s.rb (aOrc r) 1
  let spills := x.spilling || (on && decide (s.qPr q 4 ≤ x.onChip))
  let tail := if x.pages = [] then x.onChip - s.orcFetch r else x.tailCells
  let wants := spills && decide (16 ≤ tail)
  let s1 := s.setQueue q { x with spilling := spills && (wants || decide (x.pages ≠ [])) }
  let wait := s.orc.spillWait
  let s2 := { s1 with orc := { s1.orc with spillWait :=
    if wants then (if q ∈ wait then wait else wait ++ [q]) else wait.filter (fun k => decide (k ≠ q)) } }
  if x.pages ≠ [] ∧ x.headLeft < s.orcFetch r ∧ !decide (q ∈ s2.orc.fetchWait) then
    { s2 with orc := { s2.orc with fetchWait := s2.orc.fetchWait ++ [q] } }
  else s2

/-- A whole frame is stored: withdrawn with ABORT, else visible (R222, R223). -/
def storeFrame (s : State) (q : Nat) (bytes : List Byte) (cells : List Nat) (abort : Bool) : State :=
  if abort then s.release q cells.length
  else
    let need := cdiv bytes.length 256
    let s1 := s.release q (cells.length - need)
    let x := s1.queue q
    let was := decide (x.frames ≠ [])
    let f : OFrame := { bytes := bytes, cells := cells.take need }
    ((s1.setQueue q { x with frames := x.frames ++ [f] }).notifyQueue q was).pagerCheck q

/-- A frame at a disabled queue is lost (R237). -/
def orcLost (s : State) (q n : Nat) : State := s.orcCount (queueRidge q) 3 n

/-! ### Feeds and launch queues -/

def feed (s : State) (i : Nat) : Option OpenFeed := Table.get (fun _ => none) s.orc.feeds i
def setFeed (s : State) (i : Nat) (v : Option OpenFeed) : State :=
  { s with orc := { s.orc with feeds := Table.set (fun _ => none) s.orc.feeds i v } }

/-- The Orchard sink takes the visible words of a Cistern's head frame out of it. -/
def cisConsume (s : State) (i : Nat) (f : CisFrame) : State :=
  if f.closed then s.modCis i (fun x => { x with frames := x.frames.drop 1 })
  else s.modCis i (fun x => { x with frames :=
    { f with taken := f.words 32 (s.cisByWindow i) * 32, begun := true } :: x.frames.drop 1 })

/-- The frames of launch queue q of channel c (R198, R199). -/
def lq (s : State) (c q : Nat) : List LaunchFrame := Table.get (fun _ => []) (s.chan c).launch q
def setLq (s : State) (c q : Nat) (v : List LaunchFrame) : State :=
  (if v = [] ∧ s.weak ≠ [] then s.mend (.launchBuffer c q) else s).modChan c (fun x => { x with
    launch := Table.set (fun _ => []) x.launch q v })

/-- The channel whose launch queues a queue bound to c fills: the spare in service for it, else c (R226). -/
def launchTarget (s : State) (c : Nat) : Nat :=
  ((List.range 144).find? (fun x => decide ((s.chan x).subFor = c) && (s.chan x).subst && s.inService x)).getD c

/-! ### Discarding a queue (R237, R253, R254) -/

/-- The frame that Cistern i feeds into a queue is discarded with it: its visible words at once, the rest as they come. -/
def feedOff (s : State) (i : Nat) (q : Nat) : State :=
  let rest : OpenFeed := { queue := q, discard := true }
  match (s.cis i).frames with
  | f :: _ =>
    if f.shown ∧ !(s.cis i).dropping then (s.cisConsume i f).setFeed i (if f.closed then none else some rest)
    else s.setFeed i (some rest)
  | [] => s.setFeed i (some rest)

/-- A frame that is being moved into its launch queue completes before its queue goes (R237): its bytes join the launch queue at
once (DESIGN CHOICE, log entry 85). -/
def finishMove (s : State) (q : Nat) : State :=
  let x := s.queue q
  let bind := s.rf (aQueue q) 15 0
  let t := s.launchTarget (bind / 256)
  match x.frames with
  | [] => s
  | f :: rest =>
    if s.qSink q ≠ 1 ∨ f.taken = 0 then s
    else
      let s1 := (s.retireCells f f.freed f.cells.length).setQueue q { x with frames := rest }
      if f.abort then s1.addCnt (aCh t + 0x30) 1
      else s1.setLq t (bind % 8) (s1.lq t (bind % 8) ++ [{ len := f.bytes.length, bytes := f.bytes, complete := true }])

/-- Everything queue q holds is discarded and counted lost: frames, pages, open feeds, windows and held sources. -/
def discardQueue (s : State) (q : Nat) : State :=
  let r := queueRidge q
  let x := s.queue q
  let s1 := x.frames.foldl (fun (s : State) f => s.retireCells f f.freed f.cells.length) s
  let s2 := s1.freePages r x.pages
  let open_ := (s2.orc.windows.filter (fun e => e.2.opened && decide (e.2.queue = q))).length
  let feeds := (s2.orc.feeds.filter (fun e => match e.2 with | some f => decide (f.queue = q) && !f.discard | none => false)).map
    (fun e => e.1)
  let ports := (s2.orc.held.filter (fun h => decide (h.queue = q) && (match h.src with | .port .. => true | _ => false))).length
  let s3 := (s2.orcLost q (x.frames.length + open_ + feeds.length + ports)).release q (s2.queue q).node
  let s4 := s3.setQueue q { (s3.queue q) with
    frames := [], pages := [], spilling := false, xoff := false, owner := none, stalled := false }
  feeds.foldl (fun (s : State) i => s.feedOff i q) { s4 with orc := { s4.orc with
      windows := Table.mapAll (fun _ => {}) s4.orc.windows (fun _ w =>
        if w.opened ∧ w.queue = q then { w with opened := false, bytes := [], cells := [], len := 0 } else w),
      held := s4.orc.held.filter (fun h => decide (h.queue ≠ q)),
      fetchWait := s4.orc.fetchWait.filter (fun k => decide (k ≠ q)),
      spillWait := s4.orc.spillWait.filter (fun k => decide (k ≠ q)) } }

/-- A queue is disabled (R237). -/
def queueOff (s : State) (q : Nat) : State := (s.finishMove q).discardQueue q

/-- A queue's descriptor, or a cell tag of it, is lost (R253, R484). -/
def descriptorLost (s : State) (q : Nat) : State :=
  (((s.discardQueue q).setRb (aQueue q) 31 false).modQueue q (fun x => { x with fault := true })).logEvent 0x17
    (ridgeId (queueRidge q)) (w32 q) 0 0

/-- The descriptor of queue q and the tags of its cells are read (R253, R484, R486). -/
def descMeet (s : State) (q : Nat) : State :=
  if s.weak = [] then s
  else [PatrolPlace.queueDescriptor q, .orchardTag q].foldl (fun (s : State) p =>
    match s.weakAt p with
    | .corrected => s.logEvent 0x01 (ridgeId (queueRidge q)) (w32 q) 0 0
    | .uncorrectable => (s.mend p).descriptorLost q
    | _ => s) s

/-! ### Sources (R221, R231, R234) -/

/-- A terrace port's frame, whole, with the cells it already has. -/
def portFrame (s0 : State) (src : OrcSource) (q len : Nat) (bytes : List Byte) (abort : Bool) (had : List Nat) : State :=
  let s := s0.descMeet q
  if !s.qLive q then (s.release q had.length).orcLost q 1
  else
    let need := max 1 (cdiv bytes.length 256)
    let (ok, cells, s1) := growCells q (if len = 0 then 1 else cdiv len 256) (min need 64) 66 had s
    if !ok then
      if s.qHold q then
        { s1 with orc := { s1.orc with held := s1.orc.held ++ [({ src := src, queue := q, cells := cells } : HeldSource)] } }
      else s1.release q cells.length
    else if 64 < need then (s1.release q cells.length).orcLost q 1
    else s1.storeFrame q bytes cells abort

/-- The frame that Cistern i was feeding ends with ABORT: its cells and its charge go, and its sink is no longer held (R223). -/
def cutFeed (s : State) (i : Nat) : State :=
  match s.feed i with
  | none => s
  | some fd =>
    let s1 := s.setFeed i none
    let s2 := { s1 with orc := { s1.orc with held := s1.orc.held.filter (fun h => !decide (h.src = .cistern i)) } }
    if fd.discard then s2 else s2.release fd.queue fd.cells.length

/-- The frame of an open feed no longer stands at the head of its Cistern: FLUSH or DROP has taken it, or a reset. The
Orchard withdraws it (R223; for FLUSH and DROP the rules name no word the sink gets: DESIGN CHOICE, log entry 75). -/
def feedSettle (s : State) (i : Nat) : State :=
  if (s.cis i).dropping then s.cutFeed i
  else match (s.cis i).frames with
    | f :: _ => if f.begun ∨ s.orc.held.any (fun h => decide (h.src = .cistern i)) then s else s.cutFeed i
    | [] => s.cutFeed i

/-- What the Orchard sink of Cistern i finds before its next words: an owed ABORT word ends the open feed (R218), a frame not
begun opens a new one, and stored lines it reads may hold an error. -/
def feedReady (s : State) (i : Nat) : State :=
  let s1 := if (s.cis i).abortOwed then (s.cutFeed i).modCis i (fun x => { x with abortOwed := false }) else s
  match (s1.cis i).frames with
  | [] => s1.cutFeed i
  | f :: _ => (if f.begun then s1 else s1.cutFeed i).cisMeet i f.lines

/-- A Cistern's Orchard sink moves the visible part of its head frame: admission at its SOF, then cell by cell when the
length is unknown. A held source keeps the cells it has got, and waits at the next (R231, R234). -/
def orcFeed (s0 : State) (i : Nat) : State :=
  let sr := s0.feedReady i
  match (sr.cis i).frames with
  | [] => sr
  | f :: _ =>
    if !f.shown ∨ (sr.cis i).dropping ∨ !sr.cisClocked i then sr
    else
      let fd := (sr.feed i).getD { queue := sr.rf (aCis i + 0x18) 15 0 }
      let s := (sr.setFeed i none).descMeet fd.queue
      let q := fd.queue
      let upto := if f.closed then f.bytes.length else f.words 32 (s.cisByWindow i) * 32
      let bytes := fd.bytes ++ (f.bytes.take upto).drop f.taken
      let done := fun (s : State) (v : OpenFeed) => (s.cisConsume i f).setFeed i (if f.closed then none else some v)
      if fd.discard then done s fd
      else if !s.qLive q then done ((s.release q fd.cells.length).orcLost q 1) { queue := q, discard := true }
      else
        let need := max 1 (cdiv bytes.length 256)
        let (ok, cells, s1) := growCells q (if f.len = 0 then 1 else cdiv f.len 256) (min need 64) 66 fd.cells s
        if !ok then
          if s.qHold q then
            let n := 256 * cells.length
            let s2 := (if cells = [] then s1 else s1.modCis i (fun x => { x with frames :=
              { f with taken := f.taken + (n - fd.bytes.length), begun := true } :: x.frames.drop 1 })).setFeed i
                (some { fd with bytes := bytes.take n, cells := cells })
            { s2 with orc := { s2.orc with held := s2.orc.held ++ [({ src := .cistern i, queue := q, cells := [] } : HeldSource)] } }
          else done (s1.release q cells.length) { queue := q, discard := true }
        else if 64 < need then done ((s1.release q cells.length).orcLost q 1) { queue := q, discard := true }
        else if f.closed then (done s1 fd).storeFrame q bytes cells f.abort
        else done s1 { fd with bytes := bytes, cells := cells }

/-- The Cistern's sink is held at an admission decision. -/
def feedHeld (s : State) (i : Nat) : Bool := s.orc.held.any (fun h => decide (h.src = .cistern i))

/-- A frame of terrace t's Orchard port is held, and its ready signal is low (R222, R234). -/
def portHeld (s : State) (t : Nat) : Bool :=
  s.orc.held.any (fun h => match h.src with | .port u .. => decide (u = t) | _ => false)

/-! ### Enables (R235, R236, R244, R254, R424) -/

/-- A profile is in order (R235). -/
def profileOk (s : State) (r p : Nat) : Bool :=
  let w := fun k => s.rf (aProfile r p + 4 * k) 27 0
  decide (w 0 ≤ w 1) && decide (w 1 < w 2) && decide (w 2 ≤ w 3) && decide (w 4 ≤ w 3) && decide (w 5 ≤ w 3) &&
  decide (s.orcFetch r + 16 ≤ w 4)

/-- An enabled queue of the ridge names the profile. -/
def profileUsed (s : State) (r p : Nat) : Bool :=
  s.regs.any (fun e => decide (aQueue (16384 * r) ≤ e.1 ∧ e.1 < aQueue (16384 * r) + 0x20000 ∧ e.1 % 8 = 0) &&
    bit e.2 31 && decide (fld e.2 29 24 = p))

/-- The queue consistency tests on QD_CFG as written. -/
def queueCheck (s : State) (q : Nat) (v : Word) : Byte × Nat :=
  let r := queueRidge q
  let o := 0x10000 + 8 * (q % 16384)
  let bind := fld v 15 0
  let badBind := match fld v 18 17 with
    | 0 => decide (bind ≠ 0)
    | 1 => decide (143 < bind / 256) || decide (bind / 8 % 32 ≠ 0)
    | 2 => false
    | _ => true
  firstFail [
    (!s.orcEn r, 0x07, o),
    (!s.profileOk r (fld v 29 24), 0x22, o),
    (badBind, 0x02, o)]

/-- A write to QD_CFG (R91, R94, R236, R237). -/
def queueCfgWrite (s : State) (q : Nat) (v : Word) : WRes :=
  let a := aQueue q
  let r := queueRidge q
  let old := s.reg a
  let w := v &&& 0xFFFEFFFF
  if bit v 31 ∧ !bit old 31 then
    let c := s.queueCheck q v
    let s1 := s.recordCheck (aOrc r + 4) c.1 c.2
    if c.1 ≠ 0 then (s1, c.1) else ((s1.setReg a w).modQueue q (fun x => { x with fault := false }), 0)
  else if bit v 31 ∧ w ≠ old then (s, 0x09)
  else if bit old 31 ∧ !bit v 31 then ((s.queueOff q).setReg a w, 0)
  else (s.setReg a w, 0)

/-- The spill and key tests on ORC_CTRL as written (R244, R424). -/
def orcCheck (s : State) (r : Nat) (v : Word) : Byte × Nat :=
  let a := aOrc r
  let k := fld v 13 8
  let base := s.rf (a + 0x20) 23 0
  let size := s.rf (a + 0x24) 23 0
  let fetch := s.orcFetch r
  let spill := bit v 1
  firstFail [
    (spill && (List.range 4).any (fun j => !(s.dr (4 * r + j)).trained), 0x19, 0),
    (spill && bit v 2 && decide ((s.keySlot k).key = []), 0x1A, 0),
    (spill && decide (4 * s.drPages (4 * r) < base + size), 0x02, 0x20),
    (spill && decide (size = 0), 0x02, 0x24),
    (spill && (decide (fetch % 16 ≠ 0) || decide (fetch < 16) || decide (240 < fetch) ||
      decide (49152 < s.rf (a + 0x2C) 15 0)), 0x02, 0x2C),
    (bit v 2 && decide (k % 2 = 1), 0x02, 0),
    (bit v 2 && decide ((s.keySlot (k + 1)).key = []), 0x1A, 0)]

/-- The enabled queues of a ridge. -/
def liveQueues (s : State) (r : Nat) : List Nat :=
  (s.regs.filter (fun e => decide (aQueue (16384 * r) ≤ e.1 ∧ e.1 < aQueue (16384 * r) + 0x20000 ∧ e.1 % 8 = 0) &&
    bit e.2 31)).map (fun e => 16384 * r + (e.1 - aQueue (16384 * r)) / 8)

/-- Every queue of the ridge disabled, every spill page free (R254). -/
def orcOff (s : State) (r : Nat) : State :=
  let s1 := (s.liveQueues r).foldl (fun (s : State) q => (s.queueOff q).setRb (aQueue q) 31 false) s
  s1.freePages r (s1.oridge r).spillUsed

/-- A write to ORC_CTRL. -/
def orcCtrlWrite (s : State) (r : Nat) (v : Word) : WRes :=
  let a := aOrc r
  let old := s.reg a
  let w := v &&& 0x3F07
  if bit v 0 ∧ !bit old 0 then
    let c := s.orcCheck r v
    let s1 := s.recordCheck (a + 4) c.1 c.2
    if c.1 ≠ 0 then (s1, c.1) else (s1.setReg a w, 0)
  else if bit v 0 ∧ w ≠ old then (s, 0x09)
  else if bit old 0 ∧ !bit v 0 then ((s.orcOff r).setReg a w, 0)
  else (s.setReg a w, 0)

/-! ### Cistern checks (R219, R237) -/

/-- The Cistern consistency tests on CIS_CTRL as written. -/
def cisCheck (s : State) (i : Nat) (v : Word) : Byte × Nat :=
  let q := s.rf (aCis i + 0x18) 15 0
  let sink := fld v 11 10
  let bad := decide (sink = 3) || decide (fld v 9 8 = 3) ||
    (decide (i < 144) && decide (fld v 22 16 / 32 ≠ cisRidge i)) ||
    (decide (sink = 2) && decide (fld v 9 8 ≠ 2)) || (decide (144 ≤ i) && decide (1 < fld v 7 6))
  firstFail [
    (decide ((if i < 144 then 16384 else 8192) < s.cisCut i), 0x14, 8),
    (bad, 0x02, 0),
    (decide (sink = 2) && !s.domainOn (ridgeId (queueRidge q)), 0x07, 0x18),
    (decide (sink = 2) && !s.queueEn q, 0x02, 0x18)]

/-- A write to CIS_CTRL of a general Cistern. -/
def cisCtrlWrite (s : State) (i : Nat) (v : Word) : WRes :=
  let a := aCis i
  let sp := specAt a
  let old := s.reg a
  let w := (old &&& ~~~sp.rw) ||| (v &&& sp.rw)
  if i < 144 then
    -- EN, IN_W and SRC are RO; the rest is guarded by CH_CTRL.EN
    if s.chEn i ∧ (old ^^^ w) &&& sp.guard ≠ 0 then (s, 0x09) else (s.setReg a w, 0)
  else if bit v 0 ∧ !bit old 0 then
    let c := s.cisCheck i v
    let s1 := s.recordCheck (a + 4) c.1 c.2
    if c.1 ≠ 0 then (s1, c.1) else (s1.setReg a w, 0)
  else if bit v 0 ∧ (old ^^^ w) &&& sp.guard ≠ 0 then (s, 0x09)
  else (s.setReg a w, 0)

/-! ### Sinks (R224, R243, R248) -/

/-- A consumer may take the next word of a pull queue's head frame: present, not owned by another, on chip. -/
def dqReady (s : State) (q : Nat) (c : Consumer) : Bool :=
  let x := s.queue q
  s.qLive q && decide (s.qSink q ≠ 1) && (match x.owner with | none => true | some o => decide (o = c)) &&
  (match x.frames with
   | [] => false
   | f :: _ => decide (f.cells.getD (f.taken / 256) 0 ≠ inDram))

/-- The sink waits for a page (R243): counted once for each wait. -/
def dqStall (s : State) (q : Nat) (c : Consumer) : State :=
  let x := s.queue q
  match x.frames with
  | [] => s
  | f :: _ =>
    if s.qLive q ∧ s.qSink q ≠ 1 ∧ (x.owner = none ∨ x.owner = some c) ∧ f.cells.getD (f.taken / 256) 0 = inDram ∧ !x.stalled
    then (s.orcCount (queueRidge q) 6 1).setQueue q { x with stalled := true }
    else s

/-- The tag and bytes of the next word of n bytes. -/
def dqWord (s : State) (q n : Nat) : Word × List Byte :=
  match (s.queue q).frames with
  | [] => (0, [])
  | f :: _ =>
    let bs := (f.bytes.drop f.taken).take n
    let eof := decide (f.bytes.length ≤ f.taken + n)
    (flag 31 true ||| flag 30 (decide (f.taken = 0)) ||| flag 29 eof ||| flag 28 (eof && f.abort) |||
      at_ 16 (if bs.length < n then bs.length else 0) ||| w32 (if f.taken = 0 then f.bytes.length else 0), bs)

/-- The cells of the next n bytes are read. -/
def dqMeet (s : State) (q n : Nat) : State :=
  match (s.queue q).frames with
  | [] => s
  | f :: _ => s.cellsMeet q 0 (f.taken / 256) (cdiv (f.taken + n) 256)

/-- The word is taken: owner, released cells, the frame gone at its EOF. -/
def dqTake (s : State) (q n : Nat) (c : Consumer) : State :=
  let x := s.queue q
  match x.frames with
  | [] => s
  | f :: rest =>
    let eof := decide (f.bytes.length ≤ f.taken + n)
    let freed := if eof then f.cells.length else (f.taken + n) / 256
    let frames := if eof then rest else { f with taken := f.taken + n, freed := freed } :: rest
    let s1 := s.setQueue q { x with
      frames := frames, owner := if eof then none else some c, lastOut := s.now, stalled := false }
    ((s1.retireCells f f.freed freed).release q (freed - f.freed)).pagerCheck q

/-! ### Engine windows (R247, R248) -/

/-- A write to ORC_EQ_HDR. -/
def eqHdrWrite (s0 : State) (r w : Nat) (v : Word) : WRes :=
  let q := fld v 31 16
  let s := s0.descMeet q
  let len := fld v 15 0
  let x := s.owin r w
  let stop := fun (s : State) (c : Byte) => (s.setOwin r w { s.owin r w with cause := c }, c)
  if x.opened then stop s 0x30
  else if queueRidge q ≠ r ∨ !s.qLive q ∨ len = 0 ∨ 16384 < len then stop s 0x02
  else
    match s.decideCells q (cdiv len 256) [] with
    | (.admitted cs, s1) =>
      ((s1.setOwin r w { x with queue := q, len := len, bytes := [], cells := cs, opened := true }).orcCount r 0 1, 0)
    | (_, s1) => stop s1 0x32

/-- A write to ORC_EQ_DATA. -/
def eqDataWrite (s : State) (r w : Nat) (v : Word) : WRes :=
  let x := s.owin r w
  if !x.opened then (s, 0x02)
  else
    let bs := x.bytes ++ wordBytes v
    if x.len ≤ bs.length then
      let s1 := s.setOwin r w { x with opened := false, bytes := [], cells := [], len := 0 }
      (s1.storeFrame x.queue (bs.take x.len) x.cells false, 0)
    else (s.setOwin r w { x with bytes := bs }, 0)

/-- The cell that the next word of a window's queue is read from holds an uncorrectable error (R488). -/
def dqHeadBad (s : State) (r w : Nat) : Bool :=
  let q := s.rf (aWin r w + 0xC) 15 0
  decide (queueRidge q = r) && s.dqReady q (.window r w) &&
    (match (s.queue q).frames with
    | [] => false
    | f :: _ => f.weak.any (fun e => decide (f.taken / 256 ≤ e.1 ∧ e.1 < cdiv (f.taken + 4) 256 ∧ e.2 = .uncorrectable)))

/-- A read of ORC_DQ_TAG: the tag, and the bytes latched into ORC_DQ_DATA. -/
def dqTagRead (s0 : State) (r w : Nat) : Word × State :=
  let q := s0.rf (aWin r w + 0xC) 15 0
  let s := s0.descMeet q
  let c : Consumer := .window r w
  if queueRidge q = r ∧ s.dqReady q c then
    let s1 := s.dqMeet q 4
    let (tag, bs) := s1.dqWord q 4
    (tag, (s1.dqTake q 4 c).setReg (aWin r w + 0x14) (beWord bs))
  else (0, if queueRidge q = r then s.dqStall q c else s)

/-! ### The pager (R239-R246) -/

/-- The first unused, unretired spill page at or after a start, cyclic. -/
def nextPage (s : State) (r base size : Nat) : Nat → Nat → Option Nat
  | 0, _ => none
  | n + 1, k =>
    let page := base + k % size
    if page ∈ (s.oridge r).spillUsed ∨ (s.dr (4 * r + page % 4)).retired.any (fun x => decide (x.page = page / 4))
    then nextPage s r base size n (k + 1) else some page

/-- A free spill page; which of them the pager takes is left open. -/
def pickPage (s : State) (r : Nat) : Option Nat :=
  let base := s.rf (aOrc r + 0x20) 23 0
  let size := s.rf (aOrc r + 0x24) 23 0
  if size = 0 then none
  else nextPage s r base size (min size ((s.oridge r).spillUsed.length + 4097)) (Config.freeWord s.freeCtr).toNat

/-- The key of spilled pages, with SPILL_ENC. -/
def spillKey (s : State) (r : Nat) : Option Nat := if s.rb (aOrc r) 2 then some (s.rf (aOrc r) 13 8) else none

/-- The pager reads the key pair of spilled pages. -/
def spillKeyMeet (s : State) (r : Nat) : State :=
  match s.spillKey r with
  | some k => (s.keyMeet k).keyMeet (k + 1)
  | none => s

/-- Write 64 lines of a page to its channel. -/
def writePage (s0 : State) (r page : Nat) (bytes : List Byte) : State :=
  let s := s0.spillKeyMeet r
  let d := 4 * r + page % 4
  (List.range 64).foldl (fun (t : State) k =>
    t.drSpillLine d (page / 4 * 64 + k) (s.spillKey r) ((bytes.drop (64 * k)).take 64)) s

/-- The bytes of a run of cells; what a cell holds after its frame's end is left open. -/
def runBytes (x : OQueue) : List (Nat × Nat) → State → List Byte × State
  | [], s => ([], s)
  | (i, j) :: rs, s =>
    let bs := match x.frames[i]? with | some f => f.cellBytes j | none => []
    let (pad, s1) := s.freeBytes (256 - bs.length)
    let (more, s2) := runBytes x rs s1
    (bs ++ pad ++ more, s2)

/-- Set the pool mark of cells. -/
def markCells (x : OQueue) (rs : List (Nat × Nat)) (marks : List Nat) : OQueue :=
  (List.zip rs marks).foldl (fun (x : OQueue) e =>
    x.modFrame e.1.1 (fun f => { f with cells := f.cells.set e.1.2 e.2 })) x

/-- A spill reads the cells of a run; a cell of it that reads uncorrectable is freed by the spill, and so retired (R253,
R501). -/
def runMeet (s : State) (q : Nat) (run : List (Nat × Nat)) : State :=
  run.foldl (fun (s : State) e =>
    let t := s.cellsMeet q e.1 e.2 (e.2 + 1)
    match (t.queue q).frames[e.1]? with
    | none => t
    | some f =>
      if e.2 ∈ f.badCells then
        (t.retireCell (f.cells.getD e.2 0)).modQueue q (fun x => x.modFrame e.1 (fun y => { y with
          badCells := y.badCells.filter (fun j => decide (j ≠ e.2)) }))
      else t) s

/-- One page of queue q is written and its 16 cells are freed. -/
def spillQueue (s0 : State) (q : Nat) : State :=
  let r := queueRidge q
  let x0 := s0.queue q
  let at_ := if x0.pages = [] then s0.orcFetch r else x0.cells.length - x0.tailCells
  let run := (x0.refs.drop at_).take 16
  match s0.pickPage r with
  | none => s0
  | some page =>
    if run.length < 16 then s0.pagerCheck q
    else
      let s := if x0.frames.all (fun f => decide (f.weak = []) && decide (f.badCells = [])) then s0 else s0.runMeet q run
      let x := s.queue q
      let (bytes, s1) := runBytes x run s.fresh
      let s2 := s1.writePage r page bytes
      let o := s2.oridge r
      let s3 := (s2.setORidge r { o with spillUsed := o.spillUsed ++ [page] }).setQueue q
        { markCells x run (List.replicate 16 inDram) with pages := x.pages ++ [page] }
      ((s3.orcCount r 4 1)).pagerCheck q

/-- The queue a pressure spill takes: the most on-chip cells, at least FETCH + 32 (R240). -/
def pressureQueue (s : State) (r : Nat) : Option Nat :=
  ((s.liveQueues r).filter (fun q => decide (s.orcFetch r + 32 ≤ (s.queue q).onChip))).foldl (fun acc q =>
    match acc with
    | none => some q
    | some b => if (s.queue b).onChip < (s.queue q).onChip then some q else some b) none

/-- The next spill of a ridge: by pressure, else the oldest request (R242). -/
def nextSpill (s : State) (r : Nat) : Option Nat :=
  if s.orcFree r < s.rf (aOrc r + 0x2C) 15 0 ∧ (s.pressureQueue r).isSome then s.pressureQueue r
  else s.orc.spillWait.find? (fun q => decide (queueRidge q = r))

/-- The next fetch of a ridge. -/
def nextFetch (s : State) (r : Nat) : Option Nat := s.orc.fetchWait.find? (fun q => decide (queueRidge q = r))

/-- Read the lines of a page in turn; nothing more after an integrity stop. -/
def readPage (d page : Nat) (key : Option Nat) (got : List Upset) : Nat → State → List Byte × Bool × State
  | 0, s => ([], false, s)
  | n + 1, s =>
    let k := 64 - (n + 1)
    let (bs, bad, s1) := s.drFetchLine d (page * 64 + k) key (got.getD k .clean)
    if s1.stopPend then ([], true, s1)
    else
      let (more, bad2, s2) := readPage d page key got n s1
      (bs ++ more, bad || bad2, s2)

/-- The first page of queue q is fetched into 16 cells of its head segment (R241, R246). -/
def fetchQueue (s : State) (q : Nat) (got : List Upset) : State :=
  let r := queueRidge q
  let x := s.queue q
  match x.pages, s.allocCells r 16 (s.frees []) with
  | page :: rest, some marks =>
    let run := (x.refs.drop x.headCells).take 16
    let (bytes, bad, s1) := readPage (4 * r + page % 4) (page / 4) (s.spillKey r) got 64 (s.spillKeyMeet r)
    if s1.stopPend then s1
    else
      let y := (List.zip run (chunks 256 bytes)).foldl (fun (x : OQueue) e =>
        x.modFrame e.1.1 (fun f => { f.putCell e.1.2 e.2 with abort := f.abort || bad })) (markCells x run marks)
      let s2 := (s1.setQueue q { y with pages := rest, spilling := x.spilling && decide (rest ≠ []), stalled := false }).freePage
        r page
      let s3 := { s2 with orc := { s2.orc with fetchWait := s2.orc.fetchWait.filter (fun k => decide (k ≠ q)) } }
      (s3.orcCount r 5 1).pagerCheck q
  | _, _ => s

end State

open State

/-! ### Events -/

/-- The path of a source's frames to its queue is in force (R36, R270, R271); with none its words do not move (DESIGN CHOICE, log
entry 86). -/
def State.sourcePath (s : State) (src : OrcSource) : Bool :=
  match src with
  | .cistern i => !s.pathCut (portOf (.cistern i)) (groupPort (4 * queueRidge (match s.feed i with
      | some fd => fd.queue
      | none => s.rf (aCis i + 0x18) 15 0)))
  | .port t q _ _ _ => !s.pathCut (terracePort t) (groupPort (4 * queueRidge q))

/-- FRAME_ADMISSION: a source presents a frame to a queue (R230, R231). -/
def execFrameAdmission (src : OrcSource) (dt : Nat) (s : State) : Out :=
  match src with
  | .cistern i => unitEvent (decide (i < 272)) dt s (fun s =>
      if s.cisSink i = 2 ∧ !s.feedHeld i ∧ s.sourcePath src then s.orcFeed i else s)
  | .port t q len bytes abort => unitEvent (decide (t < 128 ∧ q < 65536)) dt s (fun s =>
      if s.portClocked t 2 ∧ 0 < bytes.length ∧ len ≤ 16384 ∧ !s.portHeld t ∧ s.sourcePath src then s.portFrame src q len bytes abort [] else s)

/-- HELD_ADMISSION_RETRY: a held source, by its place in the list, retries its decision (R234). -/
def execHeldAdmissionRetry (src dt : Nat) (s : State) : Out :=
  event dt s (fun s =>
    match s.orc.held[src]? with
    | none => s
    | some h =>
      if !s.sourcePath h.src then s else
      let s1 := { s with orc := { s.orc with held := s.orc.held.eraseIdx src } }
      match h.src with
      | .cistern i => s1.orcFeed i
      | .port _ q len bytes abort => s1.portFrame h.src q len bytes abort h.cells)

/-- ORCHARD_DEQUEUE: a terrace port reads a word of 32 bytes from the pull queue that its wires name (R224, R281). -/
def execOrchardDequeue (t q dt : Nat) (s : State) : Out :=
  unitEvent (decide (t < 128 ∧ q < 65536)) dt s (fun s =>
    if s.portClocked t 2 ∧ !s.pathCut (terracePort t) (groupPort (4 * queueRidge q)) ∧ s.inputBit t (.hard .dqTake) ∧
        s.hardSpells t .queueNo 16 q then
      let s := s.descMeet q
      if s.dqReady q (.port t) then (s.dqMeet q 32).dqTake q 32 (.port t) else s.dqStall q (.port t)
    else s)

/-- PRESSURE_LOOKUP: a terrace asks its pressure port, whose wires name the queue, for QD_STAT.XOFF, which answers two clocks later
(R233, R281). -/
def execPressureLookup (t q dt : Nat) (s : State) : Out :=
  unitEvent (decide (t < 128 ∧ q < 65536)) dt s (fun s =>
    if s.portClocked t 4 ∧ s.inputBit t (.hard .pressAsk) ∧ s.hardSpells t .queueNo 16 q then
      s.modUser t (fun u => { u with asks := u.asks ++ [(2, q)] })
    else s)

/-- PAGE_SPILL: with no fetch waiting, the pager writes one page (R239, R240, R242). -/
def execPageSpill (r dt : Nat) (s : State) : Out :=
  unitEvent (decide (r < 4)) dt s (fun s =>
    if s.orcEn r ∧ s.rb (aOrc r) 1 ∧ (s.nextFetch r = none ∨ s.allocCells r 16 (s.frees []) = none) then
      match s.nextSpill r with
      | none => s
      | some q =>
        if s.pickPage r = none then s else ({ s with orc := { s.orc with spillWait := s.orc.spillWait.filter (fun k => decide (k ≠ q)) } } : State).spillQueue q
    else s)

/-- PAGE_FETCH: the pager fetches the first page of the queue whose request is oldest; `got` gives how the code reads each
of its 64 lines (R241, R242, R246). -/
def execPageFetch (r : Nat) (got : List Upset) (dt : Nat) (s : State) : Out :=
  unitEvent (decide (r < 4)) dt s (fun s => match s.nextFetch r with | none => s | some q => s.fetchQueue q got)

/-- COUNTER_NODE_DOUBLE_ERROR (R250). -/
def execCounterNodeDoubleError (n : TreeNode) (recoverable : Bool) (dt : Nat) (s : State) : Out :=
  unitEvent (nodeOk n) dt s (fun s => s.nodeBad n recoverable)

/-- AUDIT_END: the node under audit is trusted again, with its rebuilt count; the next audit starts (R251, R252). -/
def execAuditEnd (n : TreeNode) (dt : Nat) (s : State) : Out :=
  unitEvent (nodeOk n) dt s (fun s =>
    match s.orc.audits with
    | [] => s
    | (m, rec_) :: rest =>
      if m = n then
        let blk := ridgeId (nodeRidge n)
        let old := if rec_ then (Config.freeWord s.freeCtr).toNat % 2 ^ 24 else 0xFFFFFF
        let s1 := ((s.fresh.setUntrust n false).logEvent 0x16 blk (nodeWord n) 0 old).logEvent 0x16 blk (w32 (s.nodeCount n)) 0 0
        ({ s1 with orc := { s1.orc with audits := rest } } : State).auditStart
      else s)

/-- DESCRIPTOR_UNCORRECTABLE: the queue is disabled and its frames are lost (R253). -/
def execDescriptorUncorrectable (q dt : Nat) (s : State) : Out :=
  unitEvent (decide (q < 65536)) dt s (fun s =>
    s.descriptorLost q)

end Sys2Proof.Machine
end

