-- ==== Sys2Proof/Machine/Time.lean ====
section
/-!
DEFINITION. The timebase: enable, frame reference inputs, the frame loop, lock, holdover, acquisition, stamps
(R99-R123), and the autonomous entry to HOLDOVER (R482).
-/
namespace Sys2Proof.Machine

open Sys2Proof

/-- Spans in ps: a frame, the window around an expected edge, the tolerance of an interval (R107). -/
def framePs : Nat := 125000000
def windowPs : Nat := 1000000
def tolPs : Nat := 100000

/-- 2 ppm of the nominal rate in 2^-40 (R110, R113). -/
def slewLimit : Int := 2199023

/-- The part of the span [a, b) that lies within [lo, hi). -/
def overlapLen (a b lo hi : Nat) : Nat := min b hi - max a lo

/-- Rate times locked duration, and locked duration, of the spans within [lo, hi); `till` ends the newest span. -/
def lockedSum (lo hi : Nat) : Nat → List RateSpan → Int × Nat
  | _, [] => (0, 0)
  | till, x :: xs =>
    let r := lockedSum lo hi x.since xs
    let n := if x.locked then overlapLen x.since till lo hi else 0
    (r.1 + x.rate * (n : Nat), r.2 + n)

/-- Drop the spans that ended before a time. -/
def trimSpans (lo : Nat) : List RateSpan → List RateSpan
  | [] => []
  | x :: xs => if x.since ≤ lo then [x] else x :: trimSpans lo xs

namespace Timebase

/-- Note the present rate and lock in the history (R112). -/
def note (now : Nat) (t : Timebase) : Timebase :=
  { t with history := trimSpans (now - 17 * 10 ^ 12) (({ since := now, rate := t.rate, locked := t.lock } : RateSpan) :: t.history) }

/-- Set or clear LOCK. -/
def setLock (now : Nat) (b : Bool) (t : Timebase) : Timebase := if t.lock = b then t else note now { t with lock := b }

/-- Holdover: the mean locked rate of the span from 17 s to 1 s ago, else nominal (R112). -/
def hold (now : Nat) (t : Timebase) : Timebase :=
  let r := lockedSum (now - 17 * 10 ^ 12) (now - 10 ^ 12) now t.history
  let rate := if r.2 = 0 then 0 else Config.roundQuot r.1 r.2
  note now { t with loop := .holdover, lock := false, rate := rate, freqTerm := rate, inCount := 0, outCount := 0 }

/-- The input record of input i. -/
def input (t : Timebase) (i : Nat) : FrameInput := if i = 0 then t.inA else t.inB
def setInput (t : Timebase) (i : Nat) (x : FrameInput) : Timebase := if i = 0 then { t with inA := x } else { t with inB := x }

end Timebase

namespace State

def modTb (s : State) (f : Timebase → Timebase) : State := { s with tb := f s.tb }
def inQual (s : State) (i : Nat) : Bool := (s.tb.input i).qualified
def refSel (s : State) : Nat := s.rf 0x30000 5 4

/-! ### Autonomous entry to HOLDOVER (R482, R98) -/

/-- What a declared loss does in SERVICE with MODE_AUTO.HOLD as it stood before a write of this clock (R98). An autonomous switch
that waits already goes on waiting. -/
def autoHoldover (s : State) : State :=
  if s.mode = .service ∧ bit (s.regBefore 0x14) 0 then
    let bound := s.ovl.bound && !s.ovl.auto
    let k := s.ovl.cairn
    let switches := s.ovl.auto || !bound && decide (s.ovl.id = 4) && s.ovl.ready
    let s1 := ((s.setRb 0x18 22 true).alert).logEvent 0x40 0x0000 (if bound then w32 k else 0xFFFFFFFF) 0
      (if switches then 1 else 0)
    if bound then { s1.cairnDrop k with mode := .holdover }
    else if s.ovl.auto then s1
    else if switches then
      { s1 with ovl := { s1.ovl with
          bound := true, auto := true,
          autoAt := (s1.tb.fp + stepsOfNs 250000 + 65535) / 65536 * 65536 % fpModulus } }
    else { s1 with mode := .holdover }
  else s

/-! ### The input in use (R108, R109, R113) -/

/-- REF_SEL `sel` allows input i. -/
def selAllows (sel i : Nat) : Bool := decide (sel = 3) || decide (sel = i + 1)

/-- The qualified input a value of REF_SEL uses, FRM_A first. -/
def choose (s : State) (sel : Nat) : Option Nat :=
  (List.range 2).find? (fun i => selAllows sel i && s.inQual i)

/-- Acquisition begins. -/
def acquire (s : State) : State :=
  s.modTb (fun t => { t with
    loop := if s.rb 0x30000 11 then .stepWait else .tracking, inCount := 0, outCount := 0 })

/-- An input is taken into use; acquisition begins when none was in use. -/
def takeInput (s : State) (i : Nat) : State :=
  let s1 := s.modTb (fun t => { t with inUse := some i, lastUsed := i, refLost := false })
  if s.tb.inUse.isNone then s1.acquire else s1

/-- The input in use has lost qualification: the other input, or loss of the reference. -/
def inputGone (s : State) : State :=
  match s.choose s.refSel with
  | some i => (s.takeInput i).setRb 0x30008 10 true
  | none =>
    ((((s.modTb (fun t => (Timebase.hold s.now { t with inUse := none, refLost := true }))).setRb 0x30008 9 true).addCnt
      0x30050 1).autoHoldover)

/-- An input has become qualified: it is used when none is in use and REF_SEL allows it. FRM_A goes before an FRM_B taken in
this same clock, whose edge then has not moved the loop (R108). -/
def inputCame (s : State) (i : Nat) : State :=
  if !s.tbOn ∨ !selAllows s.refSel i then s
  else if s.tb.inUse.isNone then
    ({ s with tick := { s.tick with took := some s.tb } } : State).takeInput i
  else match s.tick.took with
    | some t =>
      if i = 0 ∧ s.tb.inUse = some 1 then
        ({ s with tb := { t with inA := s.tb.inA, inB := s.tb.inB } } : State).takeInput i
      else s
    | none => s

/-! ### Enable and control (R102, R108, R118, R119) -/

/-- The check of TB_CTRL.EN. -/
def tbCheck (s : State) : Byte × Nat :=
  firstFail [
    (!(s.pll 15).lock, 0x11, 0),
    (!s.refStable (s.pllOn 15), 0x10, 0)]

/-- Both time values start from zero. -/
def tbStart (s : State) : State :=
  let s1 := s.modTb (fun t => { t with
    devTime := 0, fp := 0, fpAcc := 0, sfNum := 0, sfTime := 0, loop := .free, lock := false, freqTerm := 0, rate := 0,
    history := [], inUse := none, lastUsed := 0, refLost := false })
  match s1.choose s1.refSel with | some i => s1.takeInput i | none => s1

/-- Clearing EN: the timebase is as before EN was first set, but for the inputs and their counters; both values read 0 in
TB_NOW and in the engines' registers 40 to 44; every Cairn is freed with its binding (R102). -/
def tbStop (s : State) : State :=
  let s1 := s.modTb (fun t => { ({} : Timebase) with inA := t.inA, inB := t.inB, watched := t.watched })
  let s2 := s1.cairns.foldl (fun (s : State) e => s.cairnDrop e.1) s1
  let s3 := (s2.setReg 0x30000 (s2.reg 0x30000 &&& 0xFFFF7FFF)).setReg 0x30008 (s2.reg 0x30008 &&& 0xFFFFF87F)
  { s3 with
    latch := Table.keep s3.latch (fun k _ => !(decide (0x30010 / 4 ≤ k) && decide (k ≤ 0x30044 / 4)))
    engines := Table.mapAll (fun _ => {}) s3.engines (fun _ x => { x with tlatch := [0, 0, 0, 0, 0] }) }

/-- A written REF_SEL that differs takes effect. -/
def selectRef (s : State) (sel : Nat) : State :=
  if !s.tbOn then s
  else match s.choose sel with
    | some i => s.takeInput i
    | none => if s.tb.inUse.isSome then s.modTb (fun t => Timebase.hold s.now { t with inUse := none }) else s

/-- SF_ARM may be set: an input is in use that showed a superframe marker in the last 4 s. -/
def sfArmOk (s : State) (inUse : Option Nat) : Bool :=
  match inUse with
  | none => false
  | some i => match (s.tb.input i).lastMarker with
    | none => false
    | some m => decide (s.now - m ≤ 4 * 10 ^ 12)

/-- A write to TB_CTRL (R91, R94, R102, R108, R118, R119). -/
def tbCtrlWrite (s : State) (v : Word) : WRes :=
  let a := 0x30000
  let old := s.reg a
  let new := (old &&& ~~~(0xB3D : Word)) ||| (v &&& 0xB3D)
  let en := bit v 0
  let was := bit old 0
  -- a write that clears EN is accepted whole (R94)
  let clears := was && !en
  let sel := fld v 5 4
  let newSel := decide (sel ≠ fld old 5 4)
  let useAfter := if !en then none else if !was ∨ newSel then s.choose sel else s.tb.inUse
  let chk : Byte × Nat := if en ∧ !was then s.tbCheck else (0, 0)
  let s0 := if en ∧ !was then s.recordCheck (a + 4) chk.1 chk.2 else s
  let bad := firstRefusal [
    (decide (chk.1 ≠ 0), chk.1),
    (en && was && decide ((old ^^^ v) &&& 0xC ≠ 0), 0x09),
    (clears && !(decide (s.mode = .boot) || decide (s.mode = .staging)), 0x05),
    (!clears && newSel && decide (sel ≠ 0) && (s.choose sel).isNone, 0x1B),
    (!clears && bit v 15 && !s.sfArmOk useAfter, 0x1B)]
  if bad ≠ 0 then (s0, bad)
  else
    let s1 := s0.setReg a (new ||| (v &&& 0x8000))
    if en ∧ !was then (s1.tbStart, 0)
    else if clears then (s1.tbStop, 0)
    else (if newSel then s1.selectRef sel else s1, 0)

/-! ### The frame loop (R110, R111, R113, R114, R118) -/

/-- Frame Position in units of 1/fpDen steps at a reference frame start `ps` before now. -/
def fpBack (s : State) (ps : Nat) : Nat :=
  ((fpModulus + s.tb.fp) * fpDen + s.tb.fpAcc - ps * fpInc s.tb.rate / 2000) % (fpModulus * fpDen)

/-- The phase error in units of 1/fpDen steps: local frame start to the nearest reference frame start. -/
def phaseOf (a : Nat) : Int :=
  let x := a % (stepsPerFrame * fpDen)
  if 2 * x ≤ stepsPerFrame * fpDen then x else (x : Int) - ((stepsPerFrame * fpDen : Nat) : Int)

/-- The loop bandwidth in tenths of a hertz. -/
def loopBw (bw : Nat) : Nat := match bw with | 0 => 1 | 1 => 10 | 2 => 100 | _ => Config.reservedBw

/-- The phase term before its limit, in 2^-40: the phase error over 1 / (2 pi BW). The error is the time from the local
frame start to the reference's, `err` units of 1/fpDen steps at `inc` per clock of 2,000 ps; a term against its sign lets
it decay (R110; the sign DEDUCED, log entry 6). 2 pi is 6283185307179586 / 10^15. -/
def phaseTerm (bw : Nat) (err : Int) (inc : Nat) : Int :=
  Config.roundQuot (-(err * 2000 * 2 ^ 40 * 6283185307179586 * (loopBw bw : Int))) (inc * 10 ^ 12 * 10 ^ 15 * 10)

/-- The frequency term after one more interval of the reference, in 2^-40: a first-order low-pass filter whose corner is the
loop bandwidth moves it towards the reference's offset, which falls where the interval grows. How far a discrete filter moves in
an interval T lies between wT / (1 + wT) and wT, w the corner in rad/s, and is open within them (R110; the sign DEDUCED, log
entry 6; the bounds log entry 87). -/
def freqTerm (bw : Nat) (old : Int) (interval : Nat) : Int :=
  let x := Config.roundQuot (((framePs : Int) - interval) * 2 ^ 40) framePs
  let hi := cdiv (2 ^ 40 * 6283185307179586 * loopBw bw * interval) (10 ^ 15 * 10 * 10 ^ 12)
  let lo := 2 ^ 40 * hi / (2 ^ 40 + hi)
  old + Config.roundQuot ((x - old) * (max lo (min hi (Config.lowPass (loopBw bw) interval)) : Nat)) (2 ^ 40)

/-- The loop's terms and the lock counts after an accepted edge (R110, R111). A frame without an accepted edge neither
counts for LOCK nor breaks a run (DESIGN CHOICE, log entry 59). -/
def measure (s : State) (err : Int) (interval : Nat) : State :=
  let bw := s.rf 0x30000 9 8
  let inc := fpInc s.tb.rate
  let ps := Config.roundQuot (err * 2000) inc
  let near := decide (err.natAbs * 2000 ≤ 20000 * inc)
  let far := decide (100000 * inc < err.natAbs * 2000)
  let freq := freqTerm bw s.tb.freqTerm interval
  let t : Timebase := { s.tb with
    freqTerm := freq
    rate := freq + clampInt (-slewLimit) slewLimit (phaseTerm bw err inc)
    phaseErr := ps
    inCount := if near then s.tb.inCount + 1 else 0
    outCount := if far then s.tb.outCount + 1 else 0 }
  let lock := if 64 ≤ t.inCount then true else if 8 ≤ t.outCount then false else t.lock
  { s with tb := Timebase.note s.now { t with lock := lock } }

/-- TB_SF_LOAD goes into the superframe field at a marker (R118), known as one when its pulse ends. -/
def sfLoad (s : State) : State :=
  let delta := (2 ^ 32 + (s.reg 0x30034).toNat - s.tb.fp / stepsPerSf % 2 ^ 32) % 2 ^ 32
  let s1 := s.stepPosition (s.tb.fp + delta * stepsPerSf) s.tb.fpAcc
  ((s1.modTb (fun t => { t with sfNum := (t.sfNum + delta) % 2 ^ 32 })).setRb 0x30008 8 true).setRb 0x30000 15 false

/-- A step: phase 0 of frame 0 at the marker, `ps` before now (R113). -/
def sfStep (s : State) (a ps : Nat) : State :=
  let arm := s.rb 0x30000 15
  let sf := if arm then (s.reg 0x30034).toNat else (a / fpDen + stepsPerSf / 2) / stepsPerSf % 2 ^ 32
  let gone := ps * fpInc s.tb.rate / 2000
  let s1 := s.stepPosition (sf * stepsPerSf + gone / fpDen) (gone % fpDen)
  let s2 := (s1.modTb (fun t => { t with
    sfNum := sf, sfTime := t.devTime - ps * t.addend / 2000, loop := .tracking })).setRb 0x30008 7 true
  if arm then (s2.setRb 0x30008 8 true).setRb 0x30000 15 false else s2

/-- The modes in which acquisition may step (R113). -/
def stepMode (s : State) : Bool :=
  decide (s.mode = .boot) || decide (s.mode = .staging) || decide (s.mode = .maintain) || decide (s.mode = .drain)

/-- REACQ is judged when an acquisition begins and while it waits to step; 1 written during a slew changes nothing (DESIGN
CHOICE, log entry 61). An accepted edge of the input in use: `ps` since the corrected reference frame start, the interval before it, whether
it is a superframe marker. -/
def acceptEdge (s : State) (ps interval : Nat) (marker : Bool) : State :=
  let a := s.fpBack ps
  let slew := fun (s : State) =>
    let s1 := if marker ∧ s.rb 0x30000 15 then s.sfLoad else s
    (s1.modTb (fun t => { t with loop := .tracking })).measure (phaseOf a) interval
  match s.tb.loop with
  | .stepWait =>
    if !s.rb 0x30000 11 then slew s
    else if marker then
      if s.stepMode then (s.sfStep a ps).measure 0 interval else slew s
    else s
  | .tracking =>
    if marker ∧ s.tb.lock ∧ (a / fpDen + 32768) / 65536 % 16000 ≠ 0 then s.addCnt 0x30054 1 else slew s
  | _ => s

/-- A pulse of `width` ns that has just fallen at input i (R106, R107). The input remembers a marker it shows while it is
qualified, in use or not, and forgets none it has shown; one shown while unqualified is not noted (DESIGN CHOICE, log
entry 62). After absent edges the time since the last accepted edge is divided by the frames it spans to give the measured frame
interval (DESIGN CHOICE, log entry 87). -/
def framePulse (s : State) (i width : Nat) : State :=
  let x := s.tb.input i
  let rise := s.now - width * 1000
  let used := decide (s.tb.inUse = some i)
  let marker := decide (4000 ≤ width ∧ width ≤ 8000)
  let odd := decide (width < 100) || decide (2000 < width ∧ width < 4000) || decide (8000 < width)
  let last := x.lastRise.getD 0
  let due := last + (x.absent + 1) * framePs
  let inside := decide (due ≤ rise + windowPs) && decide (rise ≤ due + windowPs)
  let gap := rise - x.pulse.getD 0
  let good := x.pulse.isSome && decide (framePs ≤ gap + tolPs) && decide (gap ≤ framePs + tolPs)
  -- the pulse that ends a bad interval is the first of the new run, whether or not the input is still qualified
  let run := if good then x.run + 1 else 0
  let s1 := if used ∧ odd then s.addCnt 0x30054 1 else s
  let delay := (s.reg (0x30048 + 4 * i)).toNat
  let mark := if marker then some rise else x.lastMarker
  if x.qualified then
    if inside then
      let s2 := s1.modTb (fun t => t.setInput i { x with
        pulse := some rise, run := run, lastRise := some rise, absent := 0, lastMarker := mark })
      if used then s2.acceptEdge (width * 1000 + delay) ((rise - last) / (x.absent + 1)) marker else s2
    else
      let s2 := s1.modTb (fun t => t.setInput i { x with pulse := some rise, run := run })
      if used then s2.addCnt 0x30054 1 else s2
  else
    let q := decide (64 ≤ run)
    let s2 := s1.modTb (fun t => t.setInput i { x with
      pulse := some rise, lastRise := some rise, run := run, qualified := q, absent := 0, lastMarker := if q then mark else x.lastMarker })
    if q then
      let s3 := s2.inputCame i
      if s3.tb.inUse = some i then s3.acceptEdge (width * 1000 + delay) (rise - last) marker else s3
    else s2

/-- The window of an expected edge has ended without an edge (R107). -/
def edgeAbsent (s : State) (i : Nat) : State :=
  let x := s.tb.input i
  if x.qualified ∧ x.lastRise.getD 0 + (x.absent + 1) * framePs + windowPs ≤ s.now then
    if x.absent + 1 < 3 then s.modTb (fun t => t.setInput i { x with absent := x.absent + 1 })
    else
      let s1 := s.modTb (fun t => t.setInput i { x with absent := 0, qualified := false })
      if s1.tb.inUse = some i then s1.inputGone else s1
  else s

/-! ### Stamps (R120-R122) -/

/-- Stamp source keys: pins 0 to 63, channel c at 64 + c; records a queue holds. -/
def stampDepth (k : Nat) : Nat := if k < 64 then 4 else 16
def stampSrc (s : State) (k : Nat) : StampSource := Table.get (fun _ => {}) s.stamps k
def setStampSrc (s : State) (k : Nat) (v : StampSource) : State :=
  { s with stamps := Table.set (fun _ => {}) s.stamps k v }

/-- A stamp is taken at a source: stored, or dropped when the queue is full. -/
def pushStamp (s : State) (k : Nat) (dir : Bool) (time : BitVec 96) (fp : BitVec 64) : State :=
  let x := s.stampSrc k
  let n := x.count + 1
  if x.queue.length < stampDepth k then
    let r : Stamp := { dir := dir, lost := x.lost, seq := n, time := time, fp := fp }
    (s.setStampSrc k { queue := x.queue ++ [r], lost := false, count := n }).setTick { s.tick with
      stamped := Table.set (fun _ => 0) s.tick.stamped k (Table.get (fun _ => 0) s.tick.stamped k + 1) }
  else s.setStampSrc k { x with lost := true, count := n }

/-- The last n of a list of stamps take their times anew. -/
def stampsAgain (f : BitVec 96 → BitVec 96) (n : Nat) (l : List Stamp) : List Stamp :=
  l.take (l.length - n) ++ (l.drop (l.length - n)).map (fun r => { r with time := f r.time })

/-- The six words of the oldest record; zeros while the queue is empty. -/
def stampWords (s : State) (k : Nat) : List Word :=
  match (s.stampSrc k).queue with
  | [] => [0, 0, 0, 0, 0, 0]
  | r :: _ =>
    [flag 31 true ||| flag 30 r.dir ||| flag 29 r.lost ||| w32 r.seq.toNat,
     wordOf r.time.toNat 2, wordOf r.time.toNat 1, wordOf r.time.toNat 0, wordOf r.fp.toNat 1, wordOf r.fp.toNat 0]

/-- The oldest record is removed. -/
def popStamp (s : State) (k : Nat) : State :=
  let x := s.stampSrc k
  s.setStampSrc k { x with queue := x.queue.drop 1 }

/-- The interrupt a configuration names: IRQ [3], ENGINE [9:4], INPUT [13:10] (R121). -/
def stampIrq (s : State) (cfg : Word) : State :=
  if bit cfg 3 then s.raiseIrq (fld cfg 9 4) (w32 (2 ^ fld cfg 13 10)) else s

/-- The pin of stamp pin p (R319). -/
def stampPin (p : Nat) : Nat := 96 * (p / 16) + p % 16

/-- A pin is set as one half of an LVDS pair (R314). -/
def pinLvds (s : State) (n : Nat) : Bool := decide (2 ≤ pinStd (s.pin n).cfg ∧ pinStd (s.pin n).cfg ≤ 4)

end State

open State

/-! ### Events -/

/-- FRAME_PULSE: a pulse of `width` ns ends on a frame reference input, watched since the system PLL's first lock
(R106, R578). -/
def execFramePulse (inp width dt : Nat) (s : State) : Out :=
  unitEvent (decide (inp < 2)) dt s (fun s => if s.tb.watched ∧ 20 ≤ width then s.framePulse inp width else s)

/-- EDGE_ABSENT: the window of an expected edge ends without an edge (R107). -/
def execEdgeAbsent (inp dt : Nat) (s : State) : Out :=
  unitEvent (decide (inp < 2)) dt s (fun s => if s.tb.watched then s.edgeAbsent inp else s)

/-- STAMP_PIN_EDGE: an edge that TB_PIN_CFG enables, with the level on each side lasting 1.25 ns, reaches the stamp sampler
behind the pin's input delay line, and is stamped at the sampler's next edge, every 0.625 ns (DESIGN CHOICE of its phase, log entry
56), in native mode; it may raise an interrupt (R121, R316, R319). -/
def execStampPinEdge (p : Nat) (edge : PinEdge) (dt : Nat) (s : State) : Out :=
  unitEvent (decide (p < 64)) dt s (fun s =>
    let cfg := s.reg (0x31800 + 4 * p)
    if bit cfg 0 ∧ bit cfg (if edge.falling then 2 else 1) ∧ 1250 ≤ edge.before ∧ 1250 ≤ edge.after ∧
        !(p % 2 = 1 ∧ s.pinLvds (stampPin p)) then
      let seen := s.now + 25 * fld (s.pin (stampPin p)).cfg 12 8
      let (dt, fp) := s.tb.ahead (cdiv seen 625 * 625 - s.now)
      (s.pushStamp p edge.falling (timeForm dt) (fpForm fp)).stampIrq cfg
    else s)

end Sys2Proof.Machine
end

