-- ==== Sys2Proof/Machine/Channels.lean ====
section
/-!
DEFINITION. Channels (R165-R203, R225, R226, R429-R433): codings, frames, retry, faults, retirement and spares, lock
groups, timed launch, the channel check, inline encryption.
-/
namespace Sys2Proof.Machine

open Sys2Proof

/-! ### Frame words (R174) -/

def tData : Nat := 0xD1
def tAck : Nat := 0xA2
def tNak : Nat := 0xA3
def tMark : Nat := 0xA5
def tSubst : Nat := 0xA6
def tResync : Nat := 0xA7

/-- Fields of a header word. -/
def hType (h : Word64) : Nat := h.toNat / 2 ^ 56
def hStamp (h : Word64) : Bool := h.getLsbD 55
def hSeq (h : Word64) : BitVec 16 := BitVec.ofNat 16 (h.toNat / 2 ^ 32)
def hAck (h : Word64) : BitVec 16 := BitVec.ofNat 16 (h.toNat / 2 ^ 16)
def hLen (h : Word64) : Nat := h.toNat % 65536

/-- A header word from type, flags, the two middle fields and LEN. -/
def mkHeader (t flags mid ack len : Nat) : Word64 :=
  BitVec.ofNat 64 (t * 2 ^ 56 + flags * 2 ^ 48 + mid % 65536 * 2 ^ 32 + ack % 65536 * 2 ^ 16 + len)

/-- The CRC of header and payload words as sent. -/
def frameCrc (h : Word64) (ps : List Word64) : Word := crc32c (word64Bytes h ++ ps.flatMap word64Bytes)

/-- A trailer word. -/
def mkTrailer (h : Word64) (ps : List Word64) (tag : Nat) : Word64 :=
  BitVec.ofNat 64 ((frameCrc h ps).toNat * 2 ^ 32 + tag)

/-- The LEN of a header is one that its type may have (R175). -/
def lenOk (h : Word64) : Bool := if hType h = tData then decide (0 < hLen h) && decide (hLen h ≤ 9216) else decide (hLen h = 0)

/-- A received frame suffers a CRC failure (R175). -/
def crcFails (f : RxFrame) : Bool :=
  f.codingErr || decide (f.trailer.toNat / 2 ^ 32 ≠ (frameCrc f.header f.payload).toNat) || !lenOk f.header ||
  decide (f.payload.length ≠ cdiv (hLen f.header) 8)

namespace State

/-! ### Fields -/

def chCoding (s : State) (c : Nat) : Nat := s.rf (aCh c) 13 12
def chRetry (s : State) (c : Nat) : Bool := s.rb (aCh c) 11
def chEnc (s : State) (c : Nat) : Bool := s.rb (aCh c) 15
def chKey (s : State) (c : Nat) : Nat := s.rf (aCh c) 21 16
def chRidge (c : Nat) : Nat := c / 36
def chTmo (s : State) (c : Nat) : Nat := s.rf (aCh c + 0x10) 23 16 * 1000000
def chAckInt (s : State) (c : Nat) : Nat := s.rf (aCh c + 0x10) 15 8 * 1000000
def chWin (s : State) (c : Nat) : Nat := s.rf (aCh c + 0x10) 7 0
def chMarkPh (s : State) (c : Nat) : Nat := s.rf (aCh c + 0xC) 23 8

/-- The channel runs: enabled, not retired, its lane in RUN, its domain on, its quad's gate open (R336). -/
def chRuns (s : State) (c : Nat) : Bool :=
  s.inService c && decide ((s.lane c).st = .run) && s.domainOn (quadId (c / 4)) && s.gateOpen (quadId (c / 4))

/-- The transmitter's stream at this instant: idle words have filled the time since the last words (R174). -/
def lineNow (s : State) (c : Nat) : TxLine :=
  let x := s.chan c
  let k := (s.lane c).step
  let span := (s.now - x.line.at_) * stepKbps k / 1000000000
  LineCode.idleOver (s.chCoding c) k (span / 64 + 1) span x.line

/-- Words as the coding puts them on the line from now on, with the stream after them (R165-R171). -/
def encodeWords (s : State) (c : Nat) (ws : List Word64) : List Bool × TxLine :=
  LineCode.sendAll (s.chCoding c) (s.lane c).step (s.lineNow c) ws

/-- The line bits of an idle word of a stream. -/
def idleBits (s : State) (c : Nat) (l : TxLine) : Nat := (LineCode.sendWord (s.chCoding c) (s.lane c).step l none).1.length

/-- The time of the idle word that follows what was sent last, in ps. -/
def idlePs (s : State) (c : Nat) : Nat := bitsPs (s.idleBits c (s.chan c).line) (s.lane c).step

/-- TXLAT and RXLAT in 1/65,536 ns, with the 14 ns of encryption (R122, R433). -/
def txLat (s : State) (c : Nat) : Word := Config.txLatency (s.lane c).step + (if s.chEnc c then 917504 else 0)
def rxLat (s : State) (c : Nat) : Word := Config.rxLatency (s.lane c).step + (if s.chEnc c then 917504 else 0)

/-! ### Stamps (R121, R122) -/


/-- A stamp at a channel with a correction in 1/65,536 ns, its interrupt and its event. It is taken on the first bit of the
frame's header, which lies `age` ps back (R200). -/
def chStamp (s : State) (c : Nat) (dir : Bool) (age : Nat) : State :=
  let cfg := s.reg (aCh c + 0x800)
  if !bit cfg (if dir then 2 else 1) then s
  else
    let corr : Int := if !bit cfg 0 then 0
      else if dir then ((s.txLat c).toNat : Int)
      else - ((s.rxLat c).toNat : Int) - signedOf 32 (s.reg (aCh c + 0x804)).toNat
    let t := ((s.tb.devTime : Int) - (age / 2000 * s.tb.addend : Nat) + corr * 2 ^ 24).toNat
    let p := (((s.tb.fpAgo age : Nat) + corr / 125000) % (fpModulus : Int)).toNat
    let n := (s.stampSrc (64 + c)).queue.length
    let s1 := (s.pushStamp (64 + c) dir (timeForm t) (fpForm p)).stampIrq cfg
    if n < stampDepth (64 + c) then s1.channelEvent c 2 else s1

/-! ### Launch queues (R198, R199) -/

/-- Launch buffer bytes in use: every frame takes whole 64-bit words. -/
def lqUsed (s : State) (c : Nat) : Nat :=
  (s.chan c).launch.foldl (fun n e => e.2.foldl (fun m f => m + cdiv f.len 8 * 8) n) 0

/-- A frame of LEN finds a place in queue q and room in the buffer. -/
def lqRoom (s : State) (c q len : Nat) : Bool :=
  decide ((s.lq c q).length < 16) && decide (s.lqUsed c + cdiv len 8 * 8 ≤ 32768)

/-- Frames in the launch queues of a channel. -/
def lqCount (s : State) (c : Nat) : Nat := (s.chan c).launch.foldl (fun n e => n + e.2.length) 0

/-- The launch queues are emptied and their frames counted lost (R187, R201). -/
def lqLost (s : State) (c : Nat) : State :=
  (s.addCnt (aCh c + 0x30) (s.lqCount c)).modChan c (fun x => { x with launch := [] })

/-- The LEN write of a frame (R199). The rule ends a refused one in a bus error and names no reason; the model gives 0x07 with
EN = 0, 0x02 for a bad LEN word and 0x30 for a full queue or buffer (DESIGN CHOICE, log entry 71). -/
def lqOpen (s : State) (c q : Nat) (v : Word) : WRes :=
  let n := fld v 15 0
  if !s.chEn c then (s, 0x07)
  else if fld v 31 16 ≠ 0 ∨ n = 0 ∨ 9216 < n then (s, 0x02)
  else if !s.lqRoom c q n then (s, 0x30)
  else (s.setLq c q (s.lq c q ++ [{ len := n, bytes := [], complete := false }]), 0)

/-- A write through CH_LQ_WIN q: it fills the frame being written there, wherever it stands in the queue, else it gives the
LEN of a new one (R199). -/
def lqWinWrite (s : State) (c q : Nat) (v : Word) : WRes :=
  let fs := s.lq c q
  match (List.range fs.length).find? (fun k => (fs[k]?).any (fun f => !f.complete)) with
  | none => s.lqOpen c q v
  | some k =>
    (s.setLq c q (fs.modify k (fun f =>
      let bs := f.bytes ++ wordBytes v
      { f with bytes := bs.take f.len, complete := decide (f.len ≤ bs.length) })), 0)

/-! ### Gaps (R181) -/

/-- Steps to the next LAUNCH armed at channel c; none when no LAUNCH is armed there. -/
def nextLaunch (s : State) (c : Nat) : Option Nat :=
  (s.cairns.filterMap (fun e =>
    if e.2.kind = 1 ∧ chanId c ∈ e.2.armed then
      some (if reached s.tb.fp e.2.pos then 0 else (e.2.pos + fpModulus - s.tb.fp) % fpModulus)
    else none)).min?

/-- A frame of these words with its trailing idle word fits before the next armed LAUNCH. -/
def gapFits (s : State) (c : Nat) (ws : List Word64) : Bool :=
  match s.nextLaunch c with
  | none => true
  | some d =>
    let (bs, l) := s.encodeWords c ws
    decide (cdiv (bitsPs (bs.length + s.idleBits c l) (s.lane c).step * 65536) 125000000 ≤ d)

/-- The transmitter is free: the last frame and its idle word have been sent. -/
def txIdle (s : State) (c : Nat) : Bool := decide ((s.chan c).txEnd + s.idlePs c ≤ s.now)

/-- Words go out from now on: their line bits, when they end, and what was sent last. A frame that carries ACKSEQ settles the
receiver's debt. ACK_INT since the last frame sent is counted from that frame's start, which R178 does not say (DESIGN CHOICE,
log entry 72). -/
def sendWords (s : State) (c : Nat) (ws : List Word64) (launch carries : Bool) : State :=
  let (bs, l) := s.encodeWords c ws
  let till := s.now + bitsPs bs.length (s.lane c).step
  s.modChan c (fun x => { x with
    sent := ws, bits := bs, line := { l with at_ := till }, txEnd := till, txLaunch := launch, lastSent := s.now,
    sinceAck := if carries then 0 else x.sinceAck, firstUnacked := if carries then none else x.firstUnacked })

/-- A control frame joins those waiting for a gap, once (R181). -/
def queueControl (s : State) (c : Nat) (h : Word64) : State :=
  s.modChan c (fun x => { x with control := if h ∈ x.control then x.control else x.control ++ [h] })

/-- The header of a control frame as it leaves: ACK and NAK carry the ACKSEQ of that moment. -/
def controlNow (s : State) (c : Nat) (h : Word64) : Word64 :=
  if hType h = tAck ∨ hType h = tNak then mkHeader (hType h) 0 0 (s.chan c).ackSeq.toNat 0 else h

/-! ### Retirement (R184-R189) -/

/-- An eligible spare of channel c (R185). -/
def eligibleSpare (s : State) (c sp : Nat) : Bool :=
  s.chEn sp && !(s.chan sp).retired && decide (s.chRole sp = 1) && decide (s.chGroup sp = s.chGroup c) &&
  decide (s.chGroup c ≠ 0xFF) && decide (chRidge sp = chRidge c) && decide ((s.lane sp).st = .run) && decide (sp ≠ c) &&
  !((List.range 144).any (fun x => decide ((s.chan x).switching = some sp)))

/-- The spare a permanent fault switches in (R185). -/
def findSpare (s : State) (c : Nat) : Option Nat := (List.range 144).find? (fun sp => s.eligibleSpare c sp)

/-- A CHANNEL_RETIRE of channel c that still runs gets its reply (R189). -/
def retireReply (s : State) (c : Nat) (w : Word) : State :=
  match s.gh.running with
  | some r => if r.begun ∧ r.op = 0x31 ∧ r.params.getD 0 0 = w32 c then s.finish 0x00 0x00 [w] else s
  | none => s

/-- The switch-in of c's spare is abandoned: its queued frames are lost (R188). -/
def abandonSwitch (s : State) (c : Nat) : State :=
  ((s.modChan c (fun x => { x with switching := none })).lqLost c).retireReply c 0xFFFF

/-- Every switch-in that waits for spare sp is abandoned. -/
def abandonFor (s : State) (sp : Nat) : State :=
  (List.range 144).foldl (fun (s : State) x => if (s.chan x).switching = some sp then s.abandonSwitch x else s) s

/-- A trace packet of a channel with a header word; of its ACKSEQ and a cause (R539). -/
def traceHeader (s : State) (c kind : Nat) (h : Word64) : State := s.traceMake 6 c kind (h.extractLsb' 32 32) (h.extractLsb' 0 32)
def traceAck (s : State) (c kind cause : Nat) : State := s.traceMake 6 c kind ((s.chan c).ackSeq.zeroExtend 32) (w32 cause)

/-- The channel retires in this clock with a cause and the spare to switch in (R184, R187). -/
def retireWith (s : State) (c cause : Nat) (sp : Option Nat) : State :=
  let s0 := s.rxAbort c
  let x := s0.chan c
  let s1 := (s0.addCnt (aCh c + 0x30) x.buffer.length).setChan c { x with
    retired := true, scanOk := false, buffer := [], round := [], control := [], replacedBy := none, switching := sp,
    txEnd := min x.txEnd s.now, txLaunch := false, nakAt := none }
  let s2 := ((s1.setRf (aCh c + 0x14) 31 28 cause).setRb (aCh c + 0x14) 27 true).traceAck c 0x43 cause
  let s3 := ((s2.ladderHold c).countRetire.logEvent 0x10 (chanId c) (w32 cause) 0 (sp.getD 0xFFFF)).channelEvent c 0
  let s4 := s3.abandonFor c
  match sp with
  | some _ => s4
  | none => s4.lqLost c

/-- A permanent fault (R183, R184). -/
def permanent (s : State) (c cause : Nat) : State :=
  if s.inService c then s.retireWith c cause (s.findSpare c) else s

/-- A retry event; the eighth within 1 ms is permanent (R183). -/
def retryEvent (s : State) (c : Nat) : State :=
  let s1 := s.addCnt (aCh c + 0x2C) 1
  let ts := (s1.chan c).retryTimes ++ [s.now]
  let last := ts.drop (ts.length - 8)
  let s2 := s1.modChan c (fun x => { x with retryTimes := last })
  if last.length = 8 ∧ s.now ≤ last.headD 0 + 1000000000 then s2.permanent c 1 else s2

/-- PMA lock failure: permanent while the lane is in RUN (R148, R183). -/
def pmaFail (s : State) (c : Nat) : State := if (s.lane c).st = .run then s.permanent c 2 else s

/-! ### PRBS (R155) -/

/-- A word in LOOP: with GEN_EN the generator drives the transmit word of loops 1 and 2, which in loop 2 is the receive word;
with CHK_EN the checker reads the receive word, and its errors count in LN_PRBS_ERR. How the checker aligns itself, anew after a word
with 16 errors or more, and where the generator starts, are the model's choice (DESIGN CHOICE, log entry 65). -/
def prbsIn (s : State) (l : Nat) (w : Word64) : State :=
  let cfg := s.reg (aLane l + 0x2C)
  let x := s.lane l
  let poly := fld cfg 1 0
  let gens := bit cfg 2 && decide (x.loopKind ≠ 3)
  let (out, gen) := if gens then LineCode.prbsGen poly 64 x.gen else ([], x.gen)
  let got := if gens ∧ x.loopKind = 2 then out else LineCode.wordBits w
  let (chk, fill, errs) := if bit cfg 3 then LineCode.prbsCheck poly x.chk x.chkFill 0 got else (x.chk, x.chkFill, 0)
  (s.modLane l (fun x => { x with gen := gen, chk := chk, chkFill := if 16 ≤ errs then 0 else fill })).addCnt (aLane l + 0x30) errs

/-! ### Retry (R177-R182) -/

/-- A retry buffer that holds no frame holds no error. -/
def bufferMend (s : State) (c : Nat) : State := if (s.chan c).buffer = [] then s.mend (.retryBuffer c) else s

/-- An ACKSEQ frees the frames it acknowledges (R180). -/
def ackUpTo (s : State) (c : Nat) (a : BitVec 16) : State :=
  let x := s.chan c
  if x.buffer.any (fun f => decide (f.seq = a)) then
    let rest := (x.buffer.dropWhile (fun f => decide (f.seq ≠ a))).drop 1
    (s.setChan c { x with
      buffer := rest, lastAck := a, advancedAt := s.now, round := x.round.filter (fun f => decide (f ∈ rest)) }).bufferMend c
  else s

/-- A retransmission round of every outstanding frame (R180). -/
def startRound (s : State) (c : Nat) : State :=
  let s1 := s.modChan c (fun x => { x with round := x.buffer, advancedAt := s.now })
  if (s.chan c).buffer.isEmpty then s1 else s1.retryEvent c

/-- A CRC failure or a wrong SEQ calls for a NAK, which waits for a gap; one until the expected SEQ, or until TMO after the
last one sent (R179, R181). -/
def wantNak (s : State) (c : Nat) : State :=
  let waits := (s.chan c).control.any (fun h => decide (hType h = tNak))
  let due : Bool := match (s.chan c).nakAt with | none => true | some t => decide (t + s.chTmo c ≤ s.now)
  if due ∧ !waits then s.queueControl c (mkHeader tNak 0 0 (s.chan c).ackSeq.toNat 0) else s

/-- A NAK has been sent: TMO runs from here, and it is a retry event (R179, R183). -/
def nakSent (s : State) (c : Nat) : State :=
  ((s.modChan c (fun x => { x with nakAt := some s.now })).traceAck c 0x42 (s.rf (aCh c + 0x14) 31 28)).retryEvent c

/-! ### Encryption (R429-R432) -/

def txEpoch (s : State) (c : Nat) : Nat := s.rf (aCh c + 0x884) 15 0 * 2 ^ 32 + (s.reg (aCh c + 0x888)).toNat
def rxEpoch (s : State) (c : Nat) : Nat := s.rf (aCh c + 0x88C) 15 0 * 2 ^ 32 + (s.reg (aCh c + 0x890)).toNat

/-- An epoch advances by one. -/
def bumpEpoch (s : State) (c off : Nat) : State :=
  let n := (s.rf (aCh c + off) 15 0 * 2 ^ 32 + (s.reg (aCh c + off + 4)).toNat + 1) % 2 ^ 48
  (s.setReg (aCh c + off) (w32 (n / 2 ^ 32))).setReg (aCh c + off + 4) (w32 (n % 2 ^ 32))

/-- An uncorrectable retry buffer word (R500). -/
def retryLost (s : State) (c : Nat) : State :=
  let x := s.chan c
  let s1 := (s.addCnt (aCh c + 0x30) x.buffer.length).setChan c { x with buffer := [], round := [], txSeq := 0 } |>.mend (.retryBuffer c)
  (s1.queueControl c (mkHeader tResync 0 0 0 0)).logEvent 0x02 (chanId c) 0 0 0

/-- The initialisation vector (R430). -/
def gcmIv (dir : Bool) (epoch seq : Nat) : List Nat :=
  Crypto.beBytes 12 ((if dir then 2 ^ 95 else 0) + epoch * 2 ^ 16 + seq)

def w64Nats (ws : List Word64) : List Nat := Crypto.ofBytes (ws.flatMap word64Bytes)
def nats64 (bs : List Nat) : List Word64 := toWords64 (Crypto.toBytes bs)

/-- Encrypt payload words: the ciphertext and the 32-bit tag (R429). -/
def encrypt (s : State) (c : Nat) (h : Word64) (ps : List Word64) : List Word64 × Nat :=
  let iv := gcmIv (s.rb (aCh c + 0x880) 0) (s.txEpoch c) (hSeq h).toNat
  let (data, tag) := Crypto.gcmEnc (Crypto.ofBytes (s.keySlot (s.chKey c)).key) iv (w64Nats [h]) (w64Nats ps)
  (nats64 data, Crypto.beNum (tag.take 4))

/-- Decrypt payload words: the plaintext and the 32-bit tag they should carry. -/
def decrypt (s : State) (c : Nat) (h : Word64) (ps : List Word64) : List Word64 × Nat :=
  let iv := gcmIv (!s.rb (aCh c + 0x880) 0) (s.rxEpoch c) (hSeq h).toNat
  let (data, tag) := Crypto.gcmDec (Crypto.ofBytes (s.keySlot (s.chKey c)).key) iv (w64Nats [h]) (w64Nats ps)
  (nats64 data, Crypto.beNum (tag.take 4))

/-! ### Launch (R177, R200) -/

/-- The retry buffer takes a frame; the oldest are dropped, and counted lost, while it is over WIN frames or 64 KiB. -/
def keepFrame (s : State) (c : Nat) (f : TxFrame) : State :=
  if !s.chRetry c then s
  else
    let x := s.chan c
    let bytes := fun (g : TxFrame) => 8 * (2 + g.payload.length)
    let fits := fun (k : Nat) => decide (x.buffer.length - k < s.chWin c) &&
      decide (((x.buffer.drop k).map bytes).foldl (· + ·) 0 + bytes f ≤ 65536)
    let k := (firstBelow (x.buffer.length + 1) fits).getD x.buffer.length
    let old := x.buffer.take k
    (if k < x.buffer.length then s else s.mend (.retryBuffer c)).addCnt (aCh c + 0x30) k |>.setChan c { x with
      buffer := x.buffer.drop k ++ [f], round := x.round.filter (fun g => !decide (g ∈ old)),
      advancedAt := if (x.buffer.drop k).isEmpty then s.now else x.advancedAt }

/-- An uncorrectable launch buffer word: the frame is discarded and counted lost (R484). -/
def launchLost (s : State) (c q : Nat) : State :=
  match s.lq c q with
  | [] => s
  | _ :: rest => (s.setLq c q rest).addCnt (aCh c + 0x30) 1

/-- A LAUNCH fires at channel c: the eligible head frame of queue q starts on this edge (R134, R200). While the head frame is still
being written nothing is sent, though a later frame may be whole (DESIGN CHOICE, log entry 90). -/
def launchAtChannel (s : State) (c q : Nat) : State :=
  match s.lq c q with
  | [] => s
  | f :: rest =>
    if !f.complete then s
    else if s.weakAt (.launchBuffer c q) = .uncorrectable then ((s.mend (.launchBuffer c q)).logEvent 0x02 (chanId c) (w32 q) 0 0).launchLost c q
    else
      let met0 := if s.weakAt (.launchBuffer c q) = .corrected then s.logEvent 0x01 (chanId c) (w32 q) 0 0 else s
      let met := if s.chEnc c ∧ s.chCoding c ≠ 2 then met0.keyMeet (s.chKey c) else met0
      let s1 := (met.mend (.launchBuffer c q)).setLq c q rest
      let ps := toWords64 f.bytes
      if s.chCoding c = 2 then s1.sendWords c ps true false
      else
        let x := s1.chan c
        let stamp := s.rb (aCh c + 0x100 + 4 * q) 0
        let flags := (if stamp then 0x80 else 0) + (if s.chEnc c then 0x40 else 0)
        let h := mkHeader tData flags x.txSeq.toNat x.ackSeq.toNat f.len
        let (body, tag) := if s.chEnc c then s.encrypt c h ps else (ps, 0)
        let fr : TxFrame := { seq := x.txSeq, header := h, payload := body, trailer := mkTrailer h body tag }
        let s2 := ((s1.sendWords c ([h] ++ body ++ [fr.trailer]) true true).keepFrame c fr).traceHeader c 0x40 h
        let s3 := (s2.modChan c (fun y => { y with txSeq := y.txSeq + 1 })).addCnt (aCh c + 0x20) 1
        let s4 := if x.txSeq = 0xFFFF then s3.bumpEpoch c 0x884 else s3
        if stamp then s4.chStamp c true 0 else s4

/-- Channel c still sends a launched frame (R133); the idle word after its trailer belongs to it (R174, R181; DEDUCED, log
entry 70), on raw one all-zero word (R168; DESIGN CHOICE, log entry 90). -/
def sendsLaunch (s : State) (c : Nat) : Bool := (s.chan c).txLaunch && !s.txIdle c

/-! ### Receiving (R175, R178, R179, R182, R191, R196, R206, R212) -/

/-- The lines a frame of LEN needs are free in CIn. -/
def cisTakes (s : State) (c n : Nat) : Bool :=
  decide (cdiv n 32 ≤ s.cisFree c) && !(s.cis c).flushing && !(s.cis c).resetting

/-- The header of a frame arrives: a DATA frame in order, or any with RETRY_EN = 0, opens in CIn where there is room (R206). -/
def rxBegin (s : State) (c : Nat) (h : Word64) (age : Nat) : State :=
  if (s.chan c).rx.isSome then s
  else
    let n := hLen h
    let fits := decide (hType h = tData) && decide (0 < n) && decide (n ≤ 9216) &&
      (!s.chRetry c || decide (hSeq h = (s.chan c).rxExpect))
    let reset := (s.cis c).resetting
    let takes := s.cisTakes c n
    let s1 := s.modChan c (fun x => { x with rx := some { header := h, at_ := s.now - age, admitted := fits && (takes || reset) } })
    if !fits then s1
    else if reset then s1.modCis c (fun x => { x with skipping := true })
    else if takes then s1.cisFeed c [] n else (s1.addCnt (aCis c + 0x84) 1).cisternEvent c 1

/-- The bytes of the first payload words of the frame being received, in the clear (R176, R429). -/
def rxClear (s : State) (c : Nat) (h : Word64) (ws : List Word64) : List Byte :=
  let plain := if s.chEnc c then (s.decrypt c h ws).1 else ws
  (plain.flatMap word64Bytes).take (hLen h)

/-- Payload words arrive: those beyond the ones already taken enter CIn (R211). -/
def rxFeed (s : State) (c : Nat) (ws : List Word64) (bad : Bool) : State :=
  match (s.chan c).rx with
  | none => s
  | some r =>
    let s1 := s.modChan c (fun x => { x with rx := some { r with words := ws, bad := r.bad || bad } })
    let bs := (s.rxClear c r.header ws).drop (8 * r.words.length)
    if r.admitted ∧ bs ≠ [] then s1.cisFeed c bs (hLen r.header) else s1

/-- The frame being received is over; where CIn holds it, it closes there good or failed (R212). -/
def rxClose (s : State) (c : Nat) (good : Bool) : State :=
  match (s.chan c).rx with
  | none => s
  | some r =>
    let s1 := s.modChan c (fun x => { x with rx := none })
    if r.admitted then s1.cisEnd c good else s1

/-- A DATA frame in order, or any with RETRY_EN = 0, is accepted (R178, R182); the expected SEQ wraps when it becomes no larger than it
was (R430). Its bits came before they passed the deskew buffer (R196). -/
def acceptFrame (s : State) (c : Nat) (h : Word64) (age : Nat) : State :=
  let q := hSeq h
  let s1 := (s.modChan c (fun x => { x with
    ackSeq := q, rxExpect := q + 1, nakAt := none, sinceAck := x.sinceAck + 1,
    firstUnacked := some (x.firstUnacked.getD s.now) })).addCnt (aCh c + 0x24) 1
  let s2 := if (q + 1).toNat ≤ (s.chan c).rxExpect.toNat then s1.bumpEpoch c 0x88C else s1
  let s3 := (if hStamp h then s2.chStamp c false (age + (s.chan c).deskew) else s2).traceHeader c 0x41 h
  let s4 := s3.rxClose c true
  if 8 ≤ (s4.chan c).sinceAck then s4.queueControl c (mkHeader tAck 0 0 0 0) else s4

/-- The integrity tag of a DATA frame fails (R432). -/
def integrityFails (s : State) (c : Nat) : State :=
  let s1 := ((s.rxClose c false).setRb (aCh c + 0x14) 26 true).addCnt (aCh c + 0x894) 1
  if s.rb (aCh c) 14 then s1.permanent c 5 else s1.integrityStop 2 (s.chKey c) (chanId c) 0

/-- A DATA frame whose CRC is good: its tag is checked whatever its SEQ (R432). -/
def dataIn (s : State) (c : Nat) (f : RxFrame) : State :=
  let s0 := s.ackUpTo c (hAck f.header)
  let s1 := if s.chEnc c then s0.keyMeet (s.chKey c) else s0
  if s.chEnc c ∧ (s1.decrypt c f.header f.payload).2 ≠ f.trailer.toNat % 2 ^ 32 then s1.integrityFails c
  else if s.chRetry c ∧ hSeq f.header ≠ (s.chan c).rxExpect then (s1.rxClose c false).wantNak c
  else s1.acceptFrame c f.header f.age

/-- The lock group's channels that carry MARKs: members and the spare, in service or waiting. -/
def groupChannels (s : State) (c : Nat) : List Nat :=
  let g := s.chGroup c
  if g = 0xFF then [] else (List.range 144).filter (fun x => decide (s.chGroup x = g) && s.inService x)

/-- The MARK of a channel is no older than 16 frames; an older one is compared no more (R196). -/
def markFresh (s : State) (x : Nat) : Bool :=
  decide ((s.tb.fp + fpModulus - (s.chan x).markAt) % fpModulus < 16 * stepsPerFrame)

/-- A MARK arrives: the group's lateness, the difference that the deskew buffer delays each of its channels by, and a permanent fault
above 64 ns (R196). Its arrival is that of its first bit, before the deskew buffer, at whose far end the model sees a channel's words
(DESIGN CHOICE, log entry 91). -/
def markIn (s : State) (c n age : Nat) : State :=
  let s1 := s.modChan c (fun x => { x with markFrame := some n, markAt := s.tb.fpAgo (age + x.deskew) })
  let same := (s1.groupChannels c).filter (fun x => decide ((s1.chan x).markFrame = some n) && s1.markFresh x)
  let late := fun (x y : Nat) => ((s1.chan x).markAt + fpModulus - (s1.chan y).markAt) % fpModulus
  let lateness := fun (x : Nat) =>
    (same.map (fun y => if late x y < fpModulus / 2 then late x y else 0)).foldl max 0 * 12500000 / 65536
  let most := (same.map lateness).foldl max 0
  let s2 := same.foldl (fun (s : State) x => s.modChan x (fun y => { y with
    delay := min 0xFFFF (lateness x), deskew := 10 * (most - lateness x) })) s1
  same.foldl (fun (s : State) x => if 6400 < lateness x then s.permanent x 4 else s) s2

/-- A RESYNC arrives (R191, R430). -/
def resyncIn (s : State) (c : Nat) : State :=
  (s.modChan c (fun x => { x with rxExpect := 0, ackSeq := 0xFFFF, nakAt := none, sinceAck := 0, firstUnacked := none })).bumpEpoch
    c 0x88C

/-- A whole frame has come, its CRC judged. -/
def frameEnds (s : State) (c : Nat) (f : RxFrame) : State :=
  let s1 := s.modChan c (fun x => { x with lastEnd := s.now })
  let bad : Bool := match (s.chan c).rx with | some r => r.bad | none => false
  let t := hType f.header
  if crcFails f || bad then
    let s2 := ((s1.addCnt (aCh c + 0x28) 1).rxClose c false).modChan c (fun x => { x with rxLine := { x.rxLine with skip := true } })
    if s.chRetry c then s2.wantNak c else s2.retryEvent c
  else if t = tData then s1.dataIn c f
  else
    let s2 := s1.rxClose c false
    if t = tAck then s2.ackUpTo c (hAck f.header)
    else if t = tNak then (s2.ackUpTo c (hAck f.header)).startRound c
    else if t = tMark then s2.markIn c (hAck f.header).toNat f.age
    else if t = tSubst then s2
    else if t = tResync then s2.resyncIn c
    else s2.addCnt (aCh c + 0x34) 1

/-- A frame, or what has come of it, reaches the frame layer of channel c. While a frame is open no other header is taken
(R212). -/
def frameIn (s : State) (c : Nat) (f : RxFrame) : State :=
  let other : Bool := match (s.chan c).rx with | some r => decide (r.header ≠ f.header) | none => false
  if !s.chRuns c ∨ !(s.chan c).sync ∨ s.chCoding c = 2 ∨ other then s
  else
    let s2 := (s.rxBegin c f.header f.age).rxFeed c f.payload f.codingErr
    if f.part then s2 else s2.frameEnds c f

/-! ### From line bits to frames (R166, R167, R172-R175) -/

/-- The words that bits make up, behind those that have come before, and the stream after them. Without sync no word reaches the
frame layer; of a scramble-and-stuff block only the words are counted then. -/
def rxRead (s : State) (c : Nat) (bits : List Bool) : List LineCode.RxItem × RxLine :=
  let x := s.chan c
  let n := x.rxLine.bits.length + bits.length
  let r := LineCode.rxAll (s.chCoding c) (s.lane c).step (n + 1) { x.rxLine with bits := x.rxLine.bits ++ bits }
  if x.sync then r
  else ([], if s.chCoding c = 1 then r.2 else { x.rxLine with bits := [], scr := r.2.scr, skip := false })

/-- The next frame, or what has come of it, of received words, and the words behind it: the frame that is open, else one whose header
is the first word that is not idle. A header with a coding error or with a LEN that its type may not have fails at once (R174,
R175). -/
def rxNext (s : State) (c : Nat) (items : List LineCode.RxItem) : Option (RxFrame × List LineCode.RxItem) :=
  let bad := fun (i : LineCode.RxItem) => i.err || (decide (s.chCoding c = 0) && i.idle)
  let frame := fun (h : Word64) (age : Nat) (got : List Word64) (rest : List LineCode.RxItem) =>
    let n := cdiv (hLen h) 8 - got.length
    let ps := rest.take n
    let tr := rest.drop n
    ({ header := h, payload := got ++ ps.map (·.word), trailer := (tr.map (·.word)).headD 0
       codingErr := (rest.take (n + 1)).any bad, part := tr.isEmpty, age := age : RxFrame }, tr.drop 1)
  match (s.chan c).rx with
  | some r => if items.isEmpty then none else some (frame r.header (s.now - r.at_) r.words items)
  | none =>
    match (if (s.chan c).rxLine.skip then items.dropWhile (fun i => !i.idle) else items).dropWhile (·.idle) with
    | [] => none
    | h :: rest =>
      let age := bitsPs h.back (s.lane c).step
      if h.err || !lenOk h.word then some ({ header := h.word, trailer := 0, codingErr := true, age := age }, rest)
      else some (frame h.word age [] rest)

/-- The frames of received words reach the frame layer one after the other. -/
def rxFrames : Nat → State → Nat → List LineCode.RxItem → State
  | 0, s, _, _ => s
  | n + 1, s, c, items =>
    match s.rxNext c items with
    | none => s.modChan c (fun x => { x with rxLine := { x.rxLine with skip := x.rxLine.skip && items.all (fun i => !i.idle) } })
    | some (f, rest) => rxFrames n (s.frameIn c f) c rest

/-- Line bits come in at channel c. -/
def rxTake (s : State) (c : Nat) (bits : List Bool) : State :=
  let (items, l) := s.rxRead c bits
  rxFrames (items.length + 1) (s.modChan c (fun x => { x with rxLine := l })) c items

/-- Line bits whose first frame, or the frame that is open, is of a type. -/
def rxRow (s : State) (c : Nat) (bits : List Bool) (ty : Option Nat → Bool) : State :=
  if !s.chRuns c ∨ s.chCoding c = 2 then s
  else if ty ((s.rxNext c (s.rxRead c bits).1).map (fun e => hType e.1.header)) then s.rxTake c bits
  else s

/-! ### Enabling and disabling (R163, R193, R201-R203, R219) -/

/-- The offset of a lane register in the lane quad range (R163). -/
def laneOff (l off : Nat) : Nat := 0x100 + 0x80 * (l % 4) + off

/-- The channel check on CH_CTRL as written: the channel's tests, its lane's, its Cistern's, its key's, its spare's. No rule
names the register of a lane in LOOP: OFFSET is that of LN_STAT, which shows it (DESIGN CHOICE, log entry 73). -/
def chCheck (s : State) (c : Nat) (v : Word) : Byte × Nat :=
  let a := aCh c
  let g := s.chGroup c
  let role := s.chRole c
  let ms := s.members g
  let rc := s.reg (a + 0x10)
  let cod := fld v 13 12
  let x := s.lane c
  let (cr, co) := s.cisCheck c (s.reg (aCis c))
  firstFail [
    (decide (cod = 3) || (decide (cod = 2) && (bit v 11 || bit v 15 || s.rb (a + 0x800) 0 || decide (role = 1))), 0x02, 0),
    (decide (2 ≤ role) || decide (16 < ms.length) || ms.any (fun m => decide (chRidge m ≠ chRidge c)) ||
      ms.any (fun m => decide (s.chMarkPh m ≠ s.chMarkPh c)), 0x02, 0xC),
    (decide (fld rc 23 16 = 0) || decide (fld rc 15 8 = 0) || decide (100 < fld rc 15 8) || decide (fld rc 7 0 = 0) ||
      decide (32 < fld rc 7 0), 0x02, 0x10),
    (s.rb (a + 0x884) 15, 0x02, 0x884), (s.rb (a + 0x88C) 15, 0x02, 0x88C),
    (decide (10 < s.lnFixStep c) || decide (s.lnMax c < s.lnFixStep c), 0x02, laneOff c 0),
    (decide (s.rf (aLane c + 0x14) 1 0 = 3), 0x02, laneOff c 0x14),
    (decide (x.st = .loop), 0x26, laneOff c 4),
    (!(s.pll (8 + chRidge c)).lock, 0x11, 0x1008 + 0x100 * (8 + chRidge c)),
    (decide (cr ≠ 0), cr, co),
    (bit v 15 && (s.keySlot (fld v 21 16)).key.isEmpty, 0x1A, 0),
    (decide (role = 1) && decide (g ≠ 0xFF) && (List.range 144).any (fun y =>
      decide (y ≠ c) && decide (s.chGroup y = g) && decide (s.chRole y = 1)), 0x23, 0xC)]

/-- The index of a channel in its group, counted at enable (R193). -/
def chIndex (s : State) (c : Nat) : Nat :=
  if s.chRole c = 1 then 16 else ((s.members (s.chGroup c)).filter (fun m => decide (m < c))).length

/-- CH_CTRL.EN becomes 1: the check, then the ladder starts (R91, R202). -/
def chEnable (s : State) (c : Nat) (w : Word) : WRes :=
  let (r, off) := s.chCheck c w
  let s1 := (s.recordCheck (aCh c + 4) r off).recordCheck (aCis c + 4) r off
  if r ≠ 0 then (s1, r)
  else
    let i := s1.chIndex c
    (((s1.setReg (aCh c) w).modChan c (fun x => { x with index := i })).ladderStart c, 0)

/-- CH_CTRL.EN becomes 0 (R192, R201). -/
def chDisable (s : State) (c : Nat) (w : Word) : State :=
  let x := s.chan c
  let s1 := (s.setReg (aCh c) w).addCnt (aCh c + 0x30) x.buffer.length
  let s2 := (s1.lqLost c).abandonFor c
  let s3 := (if s.chCoding c = 2 then s2.cisRawEnd c else s2.rxAbort c).modChan c (fun y => { y with
    retired := false, scanOk := false, buffer := [], round := [], control := [], switching := none, replacedBy := none,
    subst := false, subFor := 0xFF, retryTimes := [], nakAt := none, sinceAck := 0, firstUnacked := none, markFrame := none,
    deskew := 0 })
  ((s3.carryStop c).ladderOff c).retireReply c 0xFFFF

/-- A write to CH_CTRL (R91, R94). -/
def chCtrlWrite (s : State) (c : Nat) (v : Word) : WRes :=
  let a := aCh c
  let sp := specAt a
  let old := s.reg a
  let w := (old &&& ~~~sp.rw) ||| (v &&& sp.rw)
  if bit w 0 then
    if bit old 0 then (if (old ^^^ w) &&& sp.guard ≠ 0 then (s, 0x09) else (s.setReg a w, 0))
    else s.chEnable c w
  else if bit old 0 then (s.chDisable c w, 0)
  else (s.setReg a w, 0)

/-! ### Commands (R189, R190, R191, R202) -/

/-- CHANNEL_ENABLE. -/
def opChannelEnable (s : State) (ch step group : Word) : OpRes :=
  let c := ch.toNat
  if 143 < c ∨ 10 < step.toNat ∨ 0xFF < group.toNat then opRefuse s 0x02
  else if s.chEn c then opRefuse s 0x09
  else
    let oldLn := s.reg (aLane c)
    let oldLg := s.reg (aCh c + 0xC)
    let s1 := (s.setRf (aLane c) 7 4 step.toNat).setRf (aCh c + 0xC) 7 0 group.toNat
    let (s2, r) := s1.chEnable c (putBit (s.reg (aCh c)) 0 true)
    if r = 0 then opDone s2 []
    else opRefuse ((s2.setReg (aLane c) oldLn).setReg (aCh c + 0xC) oldLg) r

/-- CHANNEL_RETIRE: with a spare the reply waits for the switch-in. -/
def opChannelRetire (s : State) (ch spare : Word) : OpRes :=
  let c := ch.toNat
  if 143 < c ∨ !s.chEn c then opRefuse s 0x02
  else if (s.chan c).retired then opRefuse s 0x1D
  else if spare = 0xFFFF then opDone (s.retireWith c 6 none) [0xFFFF]
  else if 143 < spare.toNat ∨ !s.eligibleSpare c spare.toNat then opRefuse s 0x23
  else (s.retireWith c 6 (some spare.toNat), .wait)

/-- CHANNEL_RESTORE (R190, R191). Its launch queues are empty after it: frames written into them while the channel was retired
go uncounted, and a channel that leaves its group has INDEX 0; the rule says neither (DESIGN CHOICE, log entry 38). A channel
that stood in for another stands in for it no more. A lane that is in LOOP or a ladder state stays there: step 1 of the rule speaks of
HOLD only (DESIGN CHOICE, log entry 90). -/
def opChannelRestore (s : State) (ch : Word) : OpRes :=
  let c := ch.toNat
  let x := s.chan c
  if 143 < c ∨ !x.retired then opRefuse s 0x02
  else if !(s.lane c).lock then opRefuse s 0x11
  else if !x.scanOk then opRefuse s 0x27
  else
    let s1 := if x.switching.isSome then (s.modChan c (fun y => { y with switching := none })).retireReply c 0xFFFF else s
    let s2 := (if (s1.lane c).st = .hold then s1.toRun c else s1).setRf (aCh c + 0x14) 31 28 0
    let s3 := (s2.modChan c (fun y => { y with
      retired := false, scanOk := false, replacedBy := none, txSeq := 0, rxExpect := 0, ackSeq := 0xFFFF, lastAck := 0xFFFF,
      launch := [], buffer := [], round := [], retryTimes := [], subst := false, subFor := 0xFF })).queueControl c (mkHeader tResync 0 0 0 0)
    match x.replacedBy with
    | none => opDone s3 []
    | some _ =>
      if (s3.groupSpare (s3.chGroup c)).isNone then
        opDone ((s3.setRf (aCh c + 0xC) 31 30 1).modChan c (fun y => { y with index := 16 })) []
      else
        opDone (((s3.setRf (aCh c + 0xC) 31 30 0).setRf (aCh c + 0xC) 7 0 0xFF).modChan c (fun y => { y with index := 0 })) []

/-- Frames of one launch queue move in order to the tail of the spare's; those that do not fit are counted lost; a frame
still being written stays (R186). -/
def moveQueue (s : State) (c sp q : Nat) : State :=
  let whole := (s.lq c q).filter (fun f => f.complete)
  let s1 := s.setLq c q ((s.lq c q).filter (fun f => !f.complete))
  whole.foldl (fun (s : State) f =>
    if s.lqRoom sp q f.len then s.setLq sp q (s.lq sp q ++ [f]) else s.addCnt (aCh c + 0x30) 1) s1

/-- The SUBST frame that names the place of channel c (R186). -/
def substWords (s : State) (c : Nat) : List Word64 :=
  let h := mkHeader tSubst 0 (s.chGroup c * 256 + (s.chan c).index) 0 0
  [h, mkTrailer h [] 0]

/-- The spare takes over (R186). -/
def switchIn (s : State) (c sp : Nat) : State :=
  let x := s.chan c
  let s1 := s.sendWords sp (s.substWords c) false false
  let s2 := (List.range 8).foldl (fun (s : State) q => s.moveQueue c sp q) s1
  let s3 := (s2.setRf (aCh sp + 0xC) 31 30 0).modChan sp (fun y => { y with index := x.index, subst := true, subFor := c })
  ((s3.modChan c (fun y => { y with switching := none, replacedBy := some sp })).channelEvent c 1).retireReply c (w32 sp)

/-- The head frame of a launch-bound queue moves: as far as its cells are on chip, and out of the Orchard with its last byte
(R225, R243). What the launch queue does with a frame that ends with ABORT no rule says: it is not queued, and the channel
counts it lost (R246, R253; DESIGN CHOICE, log entry 76). -/
def launchMove (sd : State) (q : Nat) : State :=
  let s0 := sd.descMeet q
  let bind := s0.rf (aQueue q) 15 0
  let c := bind / 256
  let n := bind % 8
  let t := s0.launchTarget c
  match (s0.queue q).frames with
  | [] => s0
  | f0 :: _ =>
    if !s0.qLive q ∨ s0.qSink q ≠ 1 ∨ s0.pathCut (groupPort (4 * queueRidge q)) (quadPort (t / 4)) ∨ !s0.chEn c ∨ !s0.inService t ∨ !s0.lqRoom t n f0.bytes.length then s0
    else
      let s := s0.cellsMeet q 0 (f0.taken / 256) f0.headLen
      match (s.queue q).frames with
      | [] => s
      | f :: rest =>
        if f.headLen < f.cells.length then
          let s1 := s.modQueue q (fun x => { x with stalled := true, frames := { f with taken := 256 * f.headLen } :: rest })
          (if (s.queue q).stalled then s1 else s1.orcCount (queueRidge q) 6 1).pagerCheck q
        else
          let s1 := s.modQueue q (fun x => { x with frames := rest, lastOut := s.now, stalled := false })
          let s2 := ((s1.retireCells f f.freed f.cells.length).release q (f.cells.length - f.freed)).pagerCheck q
          if f.abort then s2.addCnt (aCh t + 0x30) 1
          else s2.setLq t n (s2.lq t n ++ [{ len := f.bytes.length, bytes := f.bytes, complete := true }])

end State

open State

/-! ### Receive events -/

/-- SYNC_WORD: behind the bits given, which belong to the words before it, a sync word comes on scramble-and-stuff. It stands in its
place where the block before it ends; in sync the receiver looks nowhere else. The next block is seeded, in sync, from the expected
BC (R169, R172). -/
def execSyncWord (c : Nat) (w : Word64) (before : List Bool) (dt : Nat) (s : State) : Out :=
  unitEvent (decide (c < 144)) dt s (fun s =>
    if !s.chRuns c ∨ s.chCoding c ≠ 1 then s
    else
      let s1 := s.rxTake c before
      let x := s1.chan c
      let bc : BitVec 16 := BitVec.ofNat 16 (w.toNat / 65536)
      let inPlace := decide (x.rxLine.left = some 0) && x.rxLine.bits.isEmpty
      let good := inPlace && decide (w.toNat / 2 ^ 32 = 0xC3A596E1) &&
        decide (w.toNat % 65536 = 65535 - bc.toNat) && decide (bc = x.blockCount + 1)
      if x.sync then
        if !inPlace then s1
        else
          let bad := if good then 0 else x.badSync + 1
          (if bad < 4 then s1 else s1.rxAbort c).modChan c (fun x => { x with
            blockCount := x.blockCount + 1, badSync := bad, sync := decide (bad < 4), goodSync := 0
            rxLine := LineCode.rxBlock (x.blockCount + 1) x.rxLine })
      else
        let n := if good then x.goodSync + 1 else 0
        s1.setChan c { x with
          blockCount := bc, goodSync := n, sync := decide (4 ≤ n), badSync := 0, rxLine := LineCode.rxBlock bc x.rxLine })

/-- BLOCK_LOCK: a published coding gains or loses comma alignment, as the lane reports it (R166), or block lock, by the
sync headers received (R167); without it the frame being received fails (R212). A report of the other kind than the
step's coding has changes nothing. -/
def execBlockLock (c : Nat) (gain : LockReport) (dt : Nat) (s : State) : Out :=
  unitEvent (decide (c < 144)) dt s (fun s =>
    let x := s.chan c
    if !s.chRuns c ∨ s.chCoding c ≠ 0 then s
    else
      let (sync, n, bad) := match gain with
        | .comma aligned => if (s.lane c).step ≤ 4 then (aligned, 0, 0) else (x.sync, x.goodSync, x.badSync)
        | .headers hs => if (s.lane c).step ≤ 4 then (x.sync, x.goodSync, x.badSync)
            else hs.foldl (fun (a : Bool × Nat × Nat) h => LineCode.blockLockStep a.1 a.2.1 a.2.2 h)
              (x.sync, x.goodSync, x.badSync)
      (if sync then s else s.rxAbort c).modChan c (fun x => { x with
        sync := sync, goodSync := n, badSync := bad, rxLine := if sync then x.rxLine else { x.rxLine with bits := [], skip := false } }))

/-- DATA_FRAME_RECEIVED: line bits come in, of a frame of the DATA type, of a type with no row of its own, or of no frame at all
(R166-R178). -/
def execDataFrameReceived (c : Nat) (bits : List Bool) (dt : Nat) (s : State) : Out :=
  unitEvent (decide (c < 144)) dt s (fun s => s.rxRow c bits (fun t => t.all (fun t => decide (t ∉ [tAck, tNak, tMark, tResync]))))

/-- ACK_RECEIVED (R180). -/
def execAckReceived (c : Nat) (bits : List Bool) (dt : Nat) (s : State) : Out :=
  unitEvent (decide (c < 144)) dt s (fun s => s.rxRow c bits (fun t => decide (t = some tAck)))

/-- NAK_RECEIVED (R180). -/
def execNakReceived (c : Nat) (bits : List Bool) (dt : Nat) (s : State) : Out :=
  unitEvent (decide (c < 144)) dt s (fun s => s.rxRow c bits (fun t => decide (t = some tNak)))

/-- MARK_RECEIVED (R196). -/
def execMarkReceived (c : Nat) (bits : List Bool) (dt : Nat) (s : State) : Out :=
  unitEvent (decide (c < 144)) dt s (fun s => s.rxRow c bits (fun t => decide (t = some tMark)))

/-- RESYNC_RECEIVED (R191). -/
def execResyncReceived (c : Nat) (bits : List Bool) (dt : Nat) (s : State) : Out :=
  unitEvent (decide (c < 144)) dt s (fun s => s.rxRow c bits (fun t => decide (t = some tResync)))

/-- RAW_WORD_RECEIVED: a lane word on the raw coding enters CIn, or is counted as an overflow, or as lost during a forced
reset; a word that straddles a slip is not valid (R161, R168, R206, R218). In LOOP the PRBS checker reads the word (R155). -/
def execRawWordReceived (c : Nat) (w : Word64) (dt : Nat) (s : State) : Out :=
  unitEvent (decide (c < 144)) dt s (fun s =>
    if (s.lane c).st = .loop then s.prbsIn c w
    else if !s.chRuns c ∨ s.chCoding c ≠ 2 then s
    else if (s.lane c).straddle then s.modLane c (fun x => { x with straddle := false })
    else if (s.cis c).resetting then s.addCnt (aCis c + 0x94) 1
    else if s.cisRawRoom c ∧ !(s.cis c).flushing then
      let was := s.cisShown c
      let s1 := s.cisAppend c (word64Bytes w) 0
      (s1.modCis c (fun x => { x with
        skipping := false, frames := x.frames.map (fun f => { f with shown := true }) })).cisSettle c was
    else (s.addCnt (aCis c + 0x84) 1).cisternEvent c 1)

/-- LANE_LOCK_LOSS: a lane in RUN loses clock recovery or synthesiser lock (R148). -/
def execLaneLockLoss (l : Nat) (synth : Bool) (dt : Nat) (s : State) : Out :=
  unitEvent (decide (l < 144)) dt s (fun s =>
    if (s.lane l).st ≠ .run then s
    else
      let s1 := if synth then s.modLane l (fun x => { x with synth := false })
        else (s.scanAbort l).modLane l (fun x => { x with lock := false })
      s1.pmaFail l)

/-! ### Transmit events -/

/-- RETRY_TIMEOUT: TMO without ACKSEQ advancing while frames are outstanding (R180). -/
def execRetryTimeout (c dt : Nat) (s : State) : Out :=
  unitEvent (decide (c < 144)) dt s (fun s =>
    let x := s.chan c
    if s.chRuns c ∧ s.chRetry c ∧ s.chCoding c ≠ 2 ∧ !x.buffer.isEmpty ∧ x.advancedAt + s.chTmo c ≤ s.now then s.startRound c else s)

/-- ACK_TIMER: 2 µs since the first frame not yet acknowledged, or ACK_INT since the last frame sent (R178). -/
def execAckTimer (c dt : Nat) (s : State) : Out :=
  unitEvent (decide (c < 144)) dt s (fun s =>
    let x := s.chan c
    let first := match x.firstUnacked with | some t => decide (t + 2000000 ≤ s.now) | none => false
    if s.chRuns c ∧ s.chCoding c ≠ 2 ∧ (first = true ∨ x.lastSent + s.chAckInt c ≤ s.now) then
      s.queueControl c (mkHeader tAck 0 0 0 0)
    else s)

/-- RETRANSMISSION_GAP_SEND: a waiting control frame, else the oldest frame of the round, is sent in a gap it fits (R181). The
transmit epoch advances as RESYNC is sent (R430). -/
def execRetransmissionGapSend (c dt : Nat) (s : State) : Out :=
  unitEvent (decide (c < 144)) dt s (fun s =>
    let x := s.chan c
    if !s.chRuns c ∨ s.chCoding c = 2 ∨ !s.txIdle c then s
    else match x.control with
    | h :: rest =>
      let g := s.controlNow c h
      let ws := [g, mkTrailer g [] 0]
      if s.gapFits c ws then
        let s1 := (s.setChan c { x with control := rest }).sendWords c ws false
          (decide (hType g = tAck) || decide (hType g = tNak))
        if hType g = tNak then s1.nakSent c else if hType g = tResync then s1.bumpEpoch c 0x884 else s1
      else s
    | [] =>
      match x.round with
      | [] => s
      | f :: rest =>
        let ws := [f.header] ++ f.payload ++ [f.trailer]
        if s.weakAt (.retryBuffer c) = .uncorrectable then (s.mend (.retryBuffer c)).retryLost c
        else if s.gapFits c ws then
          let met := if s.weakAt (.retryBuffer c) = .corrected then s.logEvent 0x01 (chanId c) 0 0 0 else s
          ((met.setChan c { x with round := rest }).sendWords c ws false false).traceHeader c 0x40 f.header
        else s)

/-- MARK_SEND: the MARK of this frame, sent or skipped (R195); a spare's waits for what it is sending (R174, R181). -/
def execMarkSend (c dt : Nat) (s : State) : Out :=
  unitEvent (decide (c < 144)) dt s (fun s =>
    let x := s.chan c
    let fr := s.tb.fp / stepsPerFrame
    if !s.chRuns c ∨ s.chCoding c = 2 ∨ s.chGroup c = 0xFF ∨ !s.tbOn ∨ x.markSent = some fr ∨
        s.tb.fp % stepsPerFrame < s.chMarkPh c then s
    else
      let h := mkHeader tMark 0 (s.chGroup c * 256 + x.index) (fr % 16000) 0
      let ws := [h, mkTrailer h [] 0]
      let s1 := s.modChan c (fun y => { y with markSent := some fr })
      if s.chRole c = 1 ∧ !s.txIdle c then s
      else if s.chRole c = 1 ∨ (s.txIdle c ∧ s.gapFits c ws) then s1.sendWords c ws false false
      else s1.addCnt (aCh c + 0x38) 1)

/-- SILENCE_TIMEOUT: 100 µs of silence in RUN with SILENT_EN; a frame in progress is no silence (R183). -/
def execSilenceTimeout (c dt : Nat) (s : State) : Out :=
  unitEvent (decide (c < 144)) dt s (fun s =>
    let x := s.chan c
    if s.chRuns c ∧ s.rb (aCh c) 10 ∧ x.rx.isNone ∧ max x.lastEnd x.runSince + 100000000 ≤ s.now then s.permanent c 3 else s)

/-- SPARE_SWITCH_IN: SUBST goes out in a gap at the spare, and it takes over (R186). -/
def execSpareSwitchIn (c dt : Nat) (s : State) : Out :=
  unitEvent (decide (c < 144)) dt s (fun s =>
    match (s.chan c).switching with
    | none => s
    | some sp => if s.chRuns sp ∧ s.txIdle sp ∧ s.gapFits sp (s.substWords c) then s.switchIn c sp else s)

/-- LAUNCH_PORT_FRAME: user logic of terrace t places a whole frame, while the port is ready (R198). -/
def execLaunchPortFrame (t c q : Nat) (bytes : List Byte) (s : State) : Out :=
  unitEvent (decide (t < 128 ∧ c < 144 ∧ q < 8)) 0 s (fun s =>
    if s.portClocked t 3 ∧ s.chEn c ∧ t / 32 = chRidge c ∧ 0 < bytes.length ∧ bytes.length ≤ 9216 ∧
        s.lqRoom c q bytes.length then
      s.setLq c q (s.lq c q ++ [{ len := bytes.length, bytes := bytes, complete := true }])
    else s)

/-- ORCHARD_LAUNCH_MOVE (R225, R226). -/
def execOrchardLaunchMove (q dt : Nat) (s : State) : Out :=
  unitEvent (decide (q < 65536)) dt s (fun s => s.launchMove q)

/-- PLL_UNLOCK: a fault of a PLL; a lane reference PLL takes the synthesiser lock of its ridge with it (R140, R334). -/
def execPllUnlock (p dt : Nat) (s : State) : Out :=
  unitEvent (decide (p < 16)) dt s (fun s =>
    if !(s.pll p).lock then s
    else
      let s1 := s.modPll p (fun u => { u with lock := false, losses := min 0xFFFF (u.losses + 1) })
      let s2 := (s1.setRb aCkEvent 4 true).logEvent 0x31 0x0002 (w32 p) 0 0
      if 8 ≤ p ∧ p < 12 then
        (List.range 36).foldl (fun (s : State) k =>
          let l := 36 * (p - 8) + k
          if (s.lane l).st = .off then s
          else (s.modLane l (fun x => { x with synth := false })).pmaFail l) s2
      else s2)

end Sys2Proof.Machine
end

