-- ==== Sys2Proof/Machine/Keys.lean ====
section
/-!
DEFINITION. The key store (R419-R423, R434).
-/
namespace Sys2Proof.Machine

open Sys2Proof

/-- KS_CNT_LOAD. -/
def aKeyCount : Nat := 0x700020

namespace State

/-- A slot is loaded. -/
def keyLoaded (s : State) (k : Nat) : Bool := !(s.keySlot k).key.isEmpty

/-- A slot is in use (R422). -/
def keyInUse (s : State) (k : Nat) : Bool :=
  (List.range 144).any (fun c => s.chEn c && s.chEnc c && decide (s.chKey c = k)) ||
  (List.range 4).any (fun r => s.orcEn r && s.rb (aOrc r) 2 &&
    (decide (s.rf (aOrc r) 13 8 = k) || decide (s.rf (aOrc r) 13 8 + 1 = k)))

/-- KEY_LOAD (R420, R421). -/
def opKeyLoad (s : State) (index : Word) (wrapped : List Word) : OpRes :=
  let k := index.toNat
  if 63 < k then opRefuse s 0x02
  else
    match Crypto.unwrap (Crypto.ofBytes Config.transportKey) (Crypto.ofBytes (wrapped.flatMap wordBytes)) with
    | none => opRefuse s 0x02
    | some key =>
      if s.keyInUse k then opRefuse s 0x30
      else
        let v := w32 (Crypto.keyCheck key)
        opDone (((s.setKey k { key := Crypto.toBytes key, kcv := v }).mend (.keySlot k)).addCnt aKeyCount 1) [v]

/-- KEY_ZERO of one slot (R423). -/
def opKeyZero (s : State) (index : Word) : OpRes :=
  let k := index.toNat
  if 63 < k then opRefuse s 0x02
  else if s.keyInUse k then opRefuse s 0x30
  else opDone ((s.setKey k {}).mend (.keySlot k)) []

/-- Any slot is in use. -/
def anyKeyInUse (s : State) : Bool := (List.range 64).any s.keyInUse

/-- Every slot is overwritten with zeros. -/
def keysZero (s : State) : State :=
  { s with keys := [], weak := s.weak.filter (fun e => match e.1 with | .keySlot _ => false | _ => true) }

end State

open State

/-- KEY_SLOT_UNCORRECTABLE: a slot in use stops the device; an unused one is emptied and logged (R434). -/
def execKeySlotUncorrectable (k dt : Nat) (s : State) : Out :=
  unitEvent (decide (k < 64)) dt s (fun s =>
    if s.keyInUse k then s.integrityStop 4 k 0x0006 0
    else ((s.setKey k {}).mend (.keySlot k)).logEvent 0x51 0x0006 (w32 k) 0 0)

end Sys2Proof.Machine
end

