-- ==== Sys2Proof/Machine/Images.lean ====
section
/-!
DEFINITION. Images (R446-R456, R458-R460, R463-R467): format, checks, loads, the base commit, overlay slots, START.
-/
namespace Sys2Proof.Machine

open Sys2Proof State

/-! ### Parsing (R447, R448) -/

/-- Sections of a body, over fuel; none when the sequence breaks R448. -/
def parseSections : Nat → List Word → Option (List Section)
  | 0, _ => none
  | fuel + 1, h :: n :: rest =>
    let ty := fld h 31 24
    let s : Section := { type := ty, target := fld h 15 0, data := rest.take n.toNat }
    if fld h 23 16 ≠ 0 ∨ rest.length < n.toNat then none
    else if ty = 0x7F then
      if n.toNat = 0 ∧ rest.isEmpty ∧ s.target = 0 then some [s] else none
    else (parseSections fuel (rest.drop n.toNat)).map (fun t => s :: t)
  | _, _ => none

/-- The TARGET range of a section type; 0 for an unknown type. -/
def targetRange (ty : Nat) : Nat :=
  if ty = 1 ∨ ty = 2 then 128 else if ty = 3 then 13 else if ty = 4 then 4
  else if ty = 5 ∨ ty = 6 ∨ ty = 0x7F then 1 else 0

/-- Known types with targets in range, each type and target at most once. -/
def sectionsOk (ss : List Section) : Bool :=
  ss.all (fun x => decide (x.target < targetRange x.type)) &&
  decide ((ss.map (fun x => (x.type, x.target))).eraseDups.length = ss.length)

/-- The data of a section. -/
def sectionData (ss : List Section) (ty tgt : Nat) : Option (List Word) :=
  (ss.find? (fun x => decide (x.type = ty) && decide (x.target = tgt))).map (fun x => x.data)

/-- The section of an image. -/
def Image.data (i : Image) (ty tgt : Nat) : Option (List Word) := sectionData i.sections ty tgt

/-- IMAGE_ID and BASE_ID. -/
def Image.id (i : Image) : Word := i.header.getD 4 0
def Image.baseId (i : Image) : Word := i.header.getD 6 0

/-! ### Bank and pin words (R312, R314, R448) -/

/-- The source of a bank clock in word 0 of a BANK section, and its VIO class. -/
def bankSrc (d : List Word) (k : Nat) : Nat := if k = 0 then fld (d.getD 0 0) 5 0 else fld (d.getD 0 0) 13 8
def bankClass (d : List Word) : Nat := fld (d.getD 0 0) 26 24
/-- The word of pin k in a BANK section. -/
def bankPin (d : List Word) (k : Nat) : Word := d.getD (k + 1) 0 &&& 0xFFFF1FFF

/-- Word 0 is in order. -/
def bankWordOk (w : Word) : Bool :=
  let ok := fun n => decide (n < 8) || decide (n = 0x3F)
  ok (fld w 5 0) && ok (fld w 13 8) && decide (fld w 26 24 < 6) && decide (w &&& 0xF8FFC0C0 = 0)

/-- HOLD, STD and DIR have defined values; LVDS is in or out, as its standard says (R313). -/
def pinWordOk (w : Word) : Bool :=
  decide (pinHold w ∈ [0, 1, 2, 4, 5]) && decide (pinStd w < 5) && decide (pinDir w ≠ 3) &&
  (if pinStd w = 2 then decide (pinDir w = 1) else if isLvds w then decide (pinDir w = 0) else true)

/-- The pair rule of R314 on two words of a bank of a class. -/
def pairOk (cls : Nat) (p n : Word) : Bool :=
  if isLvds p || isLvds n then
    decide (pinStd p = pinStd n) && decide (fld p 27 26 = fld n 27 26) && decide (pinDir p = pinDir n) &&
    decide (pinTerr p = pinTerr n) && decide (cls = 3)
  else true

/-- A base BANK section of bank b passes the rules of R312, R314 and IO_PIN_CFG. -/
def bankOk (b : Nat) (d : List Word) : Bool :=
  decide (d.length = 33) && bankWordOk (d.getD 0 0) &&
  (List.range 32).all (fun k =>
    let w := bankPin d k
    pinWordOk w && (decide (w = 0) || decide (pinTerr w / 32 = bankRidge b))) &&
  (List.range 16).all (fun j => pairOk (bankClass d) (bankPin d (2 * j)) (bankPin d (2 * j + 1)))

/-- An overlay's BANK section: as a base's; the pair rule for the pairs it owns whole, the class for any LVDS pin of its own (a
pair owned in part is judged at staging, R470). -/
def ovlBankOk (own : Nat → Bool) (b : Nat) (d : List Word) : Bool :=
  decide (d.length = 33) && bankWordOk (d.getD 0 0) &&
  (List.range 16).all (fun j =>
    let p := bankPin d (2 * j)
    let n := bankPin d (2 * j + 1)
    if own (32 * b + 2 * j) && own (32 * b + 2 * j + 1) then pairOk (bankClass d) p n
    else !(isLvds p || isLvds n) || decide (bankClass d = 3)) &&
  (List.range 32).all (fun k =>
    let w := bankPin d k
    pinWordOk w && (decide (w = 0) || decide (pinTerr w / 32 = bankRidge b)))

/-- PRELOAD pairs: whole pairs, at most 512, addresses outside the closed ranges (R448, R452). -/
def preloadOk (d : List Word) : Bool :=
  decide (d.length % 2 = 0) && decide (d.length ≤ 1024) &&
  (List.range (d.length / 2)).all (fun k =>
    match placeOf (d.getD (2 * k) 0).toNat with
    | some (.gatehouse, _) | some (.cairns, _) | some (.keys, _) | some (.belvedere, _) => false
    | _ => true)

/-- OWNERSHIP data in order (R465). -/
def ownOk (d : List Word) : Bool :=
  let n := popCount 160 (fun c => maskBit d 18 c)
  decide (d.getD 0 0 ≠ 0) && decide (fld (d.getD 22 0) 31 16 = 0) && decide (d.length = 23 + 2 * n) &&
  (List.range n).all (fun k =>
    decide (fld (d.getD (23 + 2 * k) 0) 31 14 = 0) && decide (fld (d.getD (24 + 2 * k) 0) 31 8 = 0))

/-! ### Spine check (R287) -/

/-- The drivers of Spine n that SPINE data declares. -/
def spineTerrs (d : Option (List Word)) (n : Nat) : List Nat :=
  match d with
  | none => []
  | some ws => ((Config.spineDrivers ws).filter (fun e => decide (e.1 = n))).map (fun e => e.2)

/-- Some one-hot group that a section declares on Spine n holds all the drivers listed. -/
def spineGrouped (d : Option (List Word)) (n : Nat) (drivers : List Nat) : Bool :=
  match d with
  | none => false
  | some ws => (Config.spineGroups ws).any (fun g => decide (g.1 = n) && decide (g.2.length ≤ 32) &&
      drivers.all (fun t => decide (t ∈ g.2)))

/-- Every Spine of every ridge with two or more drivers, of the base and the overlay together, has all of them, the base's
included, in one declared group of at most 32 (R287). -/
def spinesOk (base ovl : List Section) : Bool :=
  (List.range 4).all (fun r => (List.range 128).all (fun n =>
    let b := sectionData base 4 r
    let o := sectionData ovl 4 r
    let all := (spineTerrs b n ++ spineTerrs o n).eraseDups
    decide (all.length < 2) || spineGrouped b n all || spineGrouped o n all))

/-! ### Header and signature checks (R447, R449, R452) -/

/-- Step 2 of the commit checks: part, stepping and grade. -/
def partOk (h : List Word) : Bool :=
  let w := h.getD 3 0
  decide (h.getD 2 0 = 0x9144) && decide (fld w 15 12 = Config.devStep.toNat / 4096 % 16) &&
  decide (fld w 11 8 ≤ Config.devStep.toNat / 256 % 16) && decide (fld w 7 4 ≤ Config.devStep.toNat / 16 % 16)

/-- The header follows R447: magic, format, check word, fields in range, reserved bits 0. -/
def headerOk (h : List Word) (len : Nat) : Bool :=
  let g := fun k => h.getD k 0
  let kind := fld (g 1) 23 16
  let ovl := fld (g 1) 15 8
  decide (g 0 = 0x47574E47) && decide (fld (g 1) 31 24 = 1) && decide (g 63 = crc32cWords (h.take 63)) &&
  decide ((g 5).toNat + 512 = len) && decide (fld (g 1) 7 0 = 0) && decide (kind < 2) &&
  (if kind = 0 then decide (ovl = 0) else decide (1 ≤ ovl) && decide (ovl ≤ 8)) &&
  decide (g 3 &&& 0xFFFF000F = 0) && (decide (fld (g 3) 7 4 = 1) || decide (fld (g 3) 7 4 = 2)) && decide (g 4 ≠ 0) &&
  decide ((g 5).toNat % 4 = 0) && decide ((g 5).toNat ≤ (if kind = 0 then 201326592 else 4194304)) &&
  (if kind = 0 then decide (g 6 = 0) && decide (g 7 &&& 0xFFFFFFFC = 0) && decide (g 10 &&& 0xFFFC0000 = 0) &&
      decide (fld (g 10) 15 8 < 32) &&
      (List.range 3).all (fun k => decide (g (11 + 2 * k) &&& 0xF8FF = 0))
    else (List.range 10).all (fun k => decide (g (7 + k) = 0))) &&
  (List.range 46).all (fun k => decide (g (17 + k) = 0))

/-- The trailer signs header and body with an accepted key (R449). -/
def signatureOk (bytes : List Byte) : Bool :=
  let n := bytes.length - 256
  let t := Crypto.ofBytes (bytes.drop n)
  let num := fun k => Crypto.beNum ((t.drop (48 * k)).take 48)
  let key := Crypto.sha384 (t.take 96)
  let digest := Crypto.sha384 (Crypto.ofBytes (bytes.take n))
  (Config.signingHashes.isEmpty || Config.signingHashes.any (fun h => decide (Crypto.ofBytes h = key))) &&
  (t.drop 192).all (fun b => decide (b = 0)) && Crypto.ecdsaVerify (num 0) (num 1) (num 2) (num 3) digest

/-- The 64 header words of an image's bytes. -/
def imageHeader (bytes : List Byte) : List Word := toWords (bytes.take 256)

/-- The body words of an image's bytes. -/
def imageBody (bytes : List Byte) : List Word := toWords ((bytes.take (bytes.length - 256)).drop 256)

namespace State

/-- Step 7 for a base image. -/
def baseSectionsOk (ss : List Section) : Bool :=
  sectionsOk ss && ss.all (fun x =>
    if x.type = 3 then bankOk x.target x.data
    else if x.type = 5 then preloadOk x.data
    else decide (x.type ≠ 6))

/-- Step 7 for an overlay (R465). -/
def ovlSectionsOk (s : State) (ss : List Section) : Bool :=
  match ss with
  | [] => false
  | o :: rest =>
    let d := o.data
    sectionsOk ss && decide (o.type = 6) && ownOk d && rest.all (fun x => decide (x.type ∈ [1, 3, 4, 0x7F])) &&
    (List.range 128).all (fun t => decide (maskBit d 1 t = (sectionData ss 1 t).isSome)) &&
    (List.range 13).all (fun b =>
      match sectionData ss 3 b with
      | none => (List.range 32).all (fun k => !maskBit d 5 (32 * b + k))
      | some w => ovlBankOk (maskBit d 5) b w && decide (bankClass w = (s.bank b).decl) &&
          (List.range 32).all (fun k => maskBit d 5 (32 * b + k) || decide (w.getD (k + 1) 0 = 0)))

/-- Steps 2 to 8 of the commit checks on an image's bytes: the reason, and the parsed image when they pass (R452). -/
def imageCheck (s : State) (bytes : List Byte) (flash : Bool) (addr : Word) : Byte × Option Image :=
  let h := imageHeader bytes
  let body := imageBody bytes
  let ovl := decide (fld (h.getD 1 0) 23 16 = 1)
  let first := fld (body.getD 0 0) 31 24
  let ss := parseSections (body.length + 1) body
  if !partOk h then (0x25, none)
  else if !headerOk h bytes.length then (0x24, none)
  else if !signatureOk bytes then (0x24, none)
  else if ovl ∧ !(match s.boot.base with | some b => decide (b.id = h.getD 6 0) | none => decide (h.getD 6 0 = 0)) then (0x25, none)
  else if ovl ∧ first = 6 ∧ (0xFFFFFFFF ≤ s.boot.ovlCount ∨ (body.getD 2 0).toNat ≤ s.boot.ovlCount) then (0x16, none)
  else
    match ss with
    | none => (0x02, none)
    | some l =>
      if !(if ovl then s.ovlSectionsOk l else baseSectionsOk l) then (0x02, none)
      else if !ovl ∧ !spinesOk l [] then (0x17, none)
      else (0, some { header := h, sections := l, bodyLen := (h.getD 5 0).toNat, fromFlash := flash, flashAddr := addr })

/-! ### Loads (R450, R451) -/

/-- What an accepted IMAGE_BEGIN of kind 0 does in its clock. -/
def baseBegin (s : State) : State :=
  let s1 := { s with
    boot := { s.boot with base := none, started := false, releasing := false, autostartDue := none }
    terraces := Table.mapAll (fun _ => {}) s.terraces (fun _ x => {
      heldBay := x.heldBay, heldUntil := x.heldUntil, lost := x.lost, lastBay := x.lastBay, holdStarts := x.holdStarts })
    bram := []
    bramCodes := []
    fab := []
    pads := []
    pins := [] }
  (List.range 13).foldl (fun (s : State) b =>
    s.modBank b (fun x => { x with decl := 0, ok := false, src0 := 63, src1 := 63 })) s1

/-- The sections of a body that have arrived whole. -/
def arrivedSections : Nat → List Word → List Section
  | fuel + 1, h :: n :: rest =>
    if rest.length < n.toNat ∨ fld h 31 24 = 0x7F then []
    else { type := fld h 31 24, target := fld h 15 0, data := rest.take n.toNat } :: arrivedSections fuel (rest.drop n.toNat)
  | _, _ => []

/-- The sections of an image of which some bytes have come. -/
def sectionsOf (len : Nat) (bytes : List Byte) : List Section :=
  let body := toWords ((bytes.take (len - 256)).drop 256)
  arrivedSections (body.length + 1) body

/-- A TERRACE or BRAM section of a base image is written, where its terrace's domain is on (R451, R458). -/
def sectionWrite (s : State) (x : Section) : State :=
  if 128 ≤ x.target ∨ !s.domainOn (terraceId x.target) then s
  else if x.type = 1 then s.modTerr x.target (fun y => { y with arrived := x.data })
  else if x.type = 2 then s.bramLoad x.target x.data
  else s

/-- The sections that a base load's next bytes complete are written; a section is written whole, as its last word arrives
(DESIGN CHOICE, log entry 88). -/
def arrive (s : State) (len : Nat) (old new : List Byte) : State :=
  ((sectionsOf len new).drop (sectionsOf len old).length).foldl sectionWrite s

/-- How a header has the flash read (R447). -/
def headerBus (h : List Word) : FlashBus where
  read8 := fld (h.getD 10 0) 7 0
  dummy := fld (h.getD 10 0) 15 8
  setups := (List.range (fld (h.getD 10 0) 17 16)).map (fun k => (h.getD (11 + 2 * k) 0, h.getD (12 + 2 * k) 0))

/-- BF_RST_N is high: low in reset and for 10 µs after (R446). -/
def bfRstN (s : State) : Bool := !s.pwr.held && decide (s.pwr.t0 + 10 ^ 7 ≤ s.now)

/-- IMAGE_BEGIN. -/
def opImageBegin (s : State) (kind ovl len src flash : Word) : OpRes :=
  let k := kind.toNat
  let n := len.toNat
  let o := ovl.toNat
  if 1 < k ∨ (k = 0 ∧ o ≠ 0) ∨ (k = 1 ∧ (o < 1 ∨ 8 < o)) ∨ n % 4 ≠ 0 ∨ n < 512 ∨
      (if k = 0 then 201326592 else 4194304) + 512 < n ∨ 1 < src.toNat ∨ flash.toNat % 4 ≠ 0 then opRefuse s 0x02
  else if s.boot.booting ∨ (match s.boot.load with | some l => l.reading | none => false) = true ∨
      (k = 1 ∧ s.ovl.id = o ∧ (s.ovl.busy ∨ s.ovl.ready ∨ s.ovl.bound)) then opRefuse s 0x30
  else
    let l : Load := {
      kind := k, ovl := o, len := n, flash := decide (src = 1), addr := flash, bytes := [], reading := decide (src = 1) }
    let s1 := if k = 0 then s.baseBegin
      else { s with boot := { s.boot with slots := Table.set (fun _ => none) s.boot.slots o none } }
    let s2 := if src = 1 then s1.setReg 0x18008 0 else s1
    opDone { s2 with boot := { s2.boot with load := some l } } []

/-- IMAGE_DATA. -/
def opImageData (s : State) (offset : Word) (words : List Word) : OpRes :=
  match s.boot.load with
  | none => opRefuse s 0x02
  | some l =>
    if l.flash ∨ offset.toNat ≠ l.bytes.length ∨ l.len < l.bytes.length + 4 * words.length then opRefuse s 0x02
    else
      let bytes := l.bytes ++ words.flatMap wordBytes
      let s1 := if l.kind = 0 then s.arrive l.len l.bytes bytes else s
      opDone { s1 with boot := { s1.boot with load := some { l with bytes := bytes } } } []

/-- Step 1 of the commit checks. -/
def loadCheck (s : State) : Byte :=
  match s.boot.load with
  | none => 0x02
  | some l =>
    let h := imageHeader l.bytes
    if l.reading then 0x30
    else if l.bytes.length ≠ l.len ∨ fld (h.getD 1 0) 23 16 ≠ l.kind ∨ fld (h.getD 1 0) 15 8 ≠ l.ovl then 0x02
    else 0

/-! ### The base commit (R320, R321, R453) -/

/-- A bank takes its section: declared class, clock sources, pins with their hold states. -/
def bankCommit (s : State) (b : Nat) (d : List Word) : State :=
  let x := s.bank b
  let s1 := s.setBank b { x with decl := bankClass d, src0 := bankSrc d 0, src1 := bankSrc d 1, ok := decide (x.meas = bankClass d) }
  let s2 := (List.range 32).foldl (fun (s : State) k =>
    s.setPin (32 * b + k) { cfg := bankPin d k, configured := true }) s1
  if bankClass d ≠ 0 ∧ x.meas ≠ bankClass d then s2.vioOut b else s2

/-- The base image takes effect in one clock: what has arrived in plane 0 comes into force. -/
def baseCommit (s : State) (i : Image) : State :=
  let s1 := { s with
    boot := { s.boot with
      base := some i, load := none, slots := [], ovlCount := 0, fallback := i.fromFlash && decide (i.flashAddr = 0x10000000) }
    terraces := Table.mapAll (fun _ => {}) s.terraces (fun _ x => { arrived := x.arrived, bramSec := x.bramSec }) }
  let clr := (List.range 128).foldl (fun (s : State) t =>
    (s.setRf (aTerr t + 0x10) 15 0 0).setRb (aTerr t + 0x10) 28 false) s1
  let s2 := clr.setReg 0x1800C (if i.fromFlash then i.flashAddr else 0xFFFFFFFF)
  let s3 := (List.range 128).foldl (fun (s : State) t =>
    match i.data 1 t with
    | none => s
    | some _ =>
      if !s.domainOn (terraceId t) then s
      else (s.modTerr t (fun x => { x with configured := true, config := x.arrived, arrived := [], activeImage := i.id })).userInit t) s2
  (List.range 13).foldl (fun (s : State) b => match i.data 3 b with | none => s | some d => s.bankCommit b d) s3

/-- The overlay is placed in its slot, and the counter advances (R454, R466). -/
def ovlCommit (s : State) (n : Nat) (i : Image) : State :=
  State.mend { s with boot := { s.boot with
    load := none, slots := Table.set (fun _ => none) s.boot.slots n (some i), ovlCount := i.seq.toNat } } (.overlayStore n)

/-! ### START (R459, R460) -/

/-- PLL outputs that the configured terraces' clock lines and the banks' clocks name. -/
def usedOutputs (s : State) : List (Nat × Nat) :=
  ((List.range 128).flatMap (fun t => (List.range 4).filterMap (fun l => (s.lineSource t l).map (sourcePll (t / 32))))) ++
  ((List.range 13).flatMap (fun b =>
    [(s.bank b).src0, (s.bank b).src1].filterMap (fun n => if n < 8 then some (sourcePll (bankRidge b) n) else none)))

/-- The PLLs that the image's clock lines use are locked (R457). -/
def linePllsLocked (s : State) : Bool :=
  (List.range 128).all (fun t => (List.range 4).all (fun l =>
    match s.lineSource t l with
    | some n => (s.pll (sourcePll (t / 32) n).1).lock
    | none => true))

/-- An output runs and its PLL is locked. -/
def outputReady (s : State) (e : Nat × Nat) : Bool := (s.pll e.1).lock && s.pllOut e.1 e.2

/-- Terraces of the base image that have not started. -/
def unstarted (s : State) : List Nat :=
  (List.range 128).filter (fun t => (s.terr t).configured && !(s.terr t).started)

/-- The Cairn-driven pins that satisfy a test take their hold states. -/
def takeHolds (s : State) (f : Pin → Bool) : State :=
  (List.range 416).foldl (fun (s : State) p =>
    if (s.pin p).configured ∧ pinCairn (s.pin p).cfg ∧ f (s.pin p) then s.takeHold p else s) s

/-- The last configured terrace has started: STARTED, and STAGING; a Cairn-driven pin whose owner has not started takes its
hold state too (R317). -/
def startDone (s : State) : State :=
  if s.boot.releasing ∧ s.unstarted.isEmpty then
    State.takeHolds { s with mode := .staging, boot := { s.boot with started := true, releasing := false } }
      (fun x => !(s.terr (pinTerr x.cfg)).started)
  else s

/-- START. -/
def opStart (s : State) : OpRes :=
  if s.boot.base.isNone then opRefuse s 0x24
  else if !(s.pll 15).lock ∨ !s.usedOutputs.all s.outputReady then opRefuse s 0x11
  else opDone (State.startDone { s with boot := { s.boot with releasing := true } }) []

/-- A terrace's last bay leaves reset: user logic drives its pins, Cairn-driven ones take their hold states (R317, R460). -/
def terraceStart (s : State) (t : Nat) : State :=
  let s1 := s.modTerr t (fun x => { x with started := true, releaseDue := false })
  ((s1.padStart t).takeHolds (fun x => decide (pinTerr x.cfg = t))).startDone

end State

open State

/-! ### Events -/

/-- FLASH_LOAD_END: the Gatehouse has read the last byte of a flash load (R450). -/
def execFlashLoadEnd (bytes : List Byte) (dt : Nat) (s : State) : Out :=
  event dt s (fun s =>
    match s.boot.load with
    | none => s
    | some l =>
      if l.flash ∧ l.reading ∧ bytes.length = l.len then
        let s1 := if l.kind = 0 then s.arrive l.len [] bytes else s
        State.setReg { s1 with boot := { s1.boot with
          load := some { l with bytes := bytes, reading := false }, bus := headerBus (imageHeader bytes) } } 0x18008 (w32 l.len)
      else s)

/-- Every bay of terrace t that has a clock line has left reset: the fourth edge of its line has passed (R460). -/
def State.baysOut (s : State) (t : Nat) : Bool :=
  (List.range 4).all (fun l => decide (4 ≤ (s.user t).edges.getD l 0) || (s.lineSource t l).isNone ||
    !(List.range 512).any (fun b => decide (s.lineOf t (.bay b) = l)))

/-- TERRACE_START: the last bay of a configured terrace has left reset, after START or a restore (R460, R557). -/
def execTerraceStart (t dt : Nat) (s : State) : Out :=
  unitEvent (decide (t < 128)) dt s (fun s =>
    let x := s.terr t
    if s.terrUp t ∧ !x.started ∧ (s.boot.releasing ∨ x.releaseDue) ∧ s.baysOut t then s.terraceStart t else s)

end Sys2Proof.Machine
end

