-- ==== Sys2Proof/Machine/Upsets.lean ====
section
/-!
DEFINITION. Errors of the coded memories: what a patrol scrubber or a reader meets, and what its storage does about it
(R484-R490, R497).
-/
namespace Sys2Proof.Machine

open Sys2Proof State

namespace State

/-! ### Patrol (R484, R497) -/

/-- The enable bit of REL_PATROL over a place. -/
def patrolBit : PatrolPlace → Nat
  | .orchardCell .. | .orchardTag _ | .queueDescriptor _ | .counterNode _ => 31
  | .scratchpad .. => 30
  | .cisternLine .. | .launchBuffer .. | .retryBuffer _ => 29
  | _ => 28

/-- The block that holds a place, and the index its log entry carries. -/
def patrolBlock : PatrolPlace → Nat × Nat
  | .orchardCell q f _ => (ridgeId (q % 65536 / 16384), f)
  | .orchardTag q | .queueDescriptor q => (ridgeId (q % 65536 / 16384), q)
  | .counterNode n => (ridgeId (nodeRidge n), (nodeWord n).toNat)
  | .scratchpad e a => (engineId e, a)
  | .cisternLine i _ => (cisId i, 0)
  | .launchBuffer c q => (chanId c, q)
  | .retryBuffer c => (chanId c, 0)
  | .threadEntry t _ => (0x0007, t)
  | .flowEntry f _ => (0x0007, f)
  | .cairnEntry k _ => (0x0004, k)
  | .overlayStore n => (0x0001, n)
  | .keySlot k => (0x0006, k)
  | .logEntry n => (0x0008, n)

/-- The place exists. -/
def patrolOk : PatrolPlace → Bool
  | .orchardCell q _ _ | .orchardTag q | .queueDescriptor q => decide (q < 65536)
  | .counterNode n => nodeOk n
  | .scratchpad e a => decide (e < 64) && decide (a < 0x40000)
  | .cisternLine i _ => decide (i < 272)
  | .launchBuffer c q => decide (c < 144) && decide (q < 8)
  | .retryBuffer c => decide (c < 144)
  | .threadEntry t w => decide (t < 8192) && decide (w < 8)
  | .flowEntry f w => decide (f < 16384) && decide (w < 2)
  | .cairnEntry k w => decide (k < 4096) && decide (w < 4)
  | .overlayStore n => decide (1 ≤ n) && decide (n ≤ 8)
  | .keySlot k => decide (k < 64)
  | .logEntry _ => true

/-- A cell of a queued frame reads uncorrectable: its frame ends with ABORT, and the cell is retired when the frame leaves
(R484, R501). A cell that is free or in DRAM holds no frame's data. -/
def cellLost (s : State) (q f j : Nat) : State :=
  s.modQueue q (fun x => x.modFrame f (fun y =>
    if y.freed ≤ j ∧ y.cells.getD j inDram < 4 then
      { y with abort := true, badCells := if j ∈ y.badCells then y.badCells else j :: y.badCells, weak := y.weak.filter (fun e => decide (e.1 ≠ j)) } else y))

/-- The entry of an error met by a patrol scrubber. -/
def patrolLog (event : Nat) (p : PatrolPlace) (s : State) : State :=
  match p with
  | .orchardCell q f j => cellLog event (((s.queue q).frames.getD f { bytes := [], cells := [] }).cells.getD j inDram) q s
  | _ => s.logEvent event (patrolBlock p).1 (w32 (patrolBlock p).2) 0 0

/-- An uncorrectable word met by a patrol scrubber or an access (R484). -/
def patrolLost (s : State) (p : PatrolPlace) : State :=
  let log := patrolLog 0x02 p
  match p with
  | .orchardCell q f j => (log s).cellLost q f j
  | .orchardTag q | .queueDescriptor q => s.descriptorLost q
  | .counterNode n => s.fresh.nodeBad n (Config.freeBit s.freeCtr)
  | .scratchpad e a =>
    log { s with spadBad := Table.set (fun _ => false) s.spadBad (e * 32768 + a / 8) true }
  | .cisternLine i k => (log s).cisLineBad i k
  | .launchBuffer c q => (log s).launchLost c q
  | .retryBuffer c => s.retryLost c
  | .threadEntry t _ => (log s).threadHalt t
  | .flowEntry f _ => (log s).flowLost f
  | .cairnEntry k _ => (log s).cairnDrop k
  | .overlayStore n =>
    let s1 := log s
    { s1 with boot := { s1.boot with slots := Table.set (fun _ => none) s1.boot.slots n none } }
  | .keySlot k =>
    if s.keyInUse k then s.integrityStop 4 k 0x0006 0 else (s.setKey k {}).logEvent 0x51 0x0006 (w32 k) 0 0
  | .logEntry n =>
    let s1 := { s with log := { s.log with entries := s.log.entries.map (fun (x : LogEntry) =>
      if x.seq = n then { x with words := (x.words.getD 0 0 ||| flag 27 true) :: x.words.drop 1 } else x) } }
    log s1

/-- A word takes an error: its next reader meets it (DESIGN CHOICE, log entry 74). A buffer that holds no frame holds no word. -/
def takeUpset (s : State) (p : PatrolPlace) (u : Upset) : State :=
  match p, u with
  | _, .clean | _, .forged => s
  | .orchardCell q f j, _ => s.modQueue q (fun x => x.modFrame f (fun y =>
      if y.freed ≤ j ∧ y.cells.getD j inDram < 4 then { y with weak := y.weak ++ [(j, u)] } else y))
  | .cisternLine i k, _ => s.cisLineWeak i k u
  | .scratchpad e a, .uncorrectable =>
    { s with spadBad := Table.set (fun _ => false) s.spadBad (e * 32768 + a / 8) true }
  | .scratchpad e a, _ => s.setWeak (.scratchpad e (a / 8 * 8)) u
  | .launchBuffer c q, _ => if s.lq c q = [] then s else s.setWeak p u
  | .retryBuffer c, _ => if (s.chan c).buffer = [] then s else s.setWeak p u
  | _, _ => s.setWeak p u

/-- The error that a place holds, wherever its storage keeps it. -/
def heldUpset (s : State) (p : PatrolPlace) : Upset :=
  let worst := fun (l : List Upset) => if .uncorrectable ∈ l then .uncorrectable else if .corrected ∈ l then Upset.corrected else .clean
  match p with
  | .orchardCell q f j =>
    match (s.queue q).frames[f]? with
    | some x => worst ((x.weak.filter (fun e => decide (e.1 = j))).map (·.2))
    | none => .clean
  | .cisternLine i k =>
    match cisLineAt (s.cis i).frames 0 k with
    | some (j, n) => match (s.cis i).frames[j]? with
      | some x => worst ((x.weak.filter (fun e => decide (e.1 = n))).map (·.2))
      | none => .clean
    | none => .clean
  | .scratchpad e a => if s.spadBadAt e a then .uncorrectable else s.weakAt (.scratchpad e (a / 8 * 8))
  | _ => s.weakAt p

/-- A place is written anew by its scrubber (R487). -/
def rewrite (s : State) (p : PatrolPlace) : State :=
  match p with
  | .orchardCell q f j => s.modQueue q (fun x => x.modFrame f (fun y => { y with weak := y.weak.filter (fun e => decide (e.1 ≠ j)) }))
  | .cisternLine i k =>
    match cisLineAt (s.cis i).frames 0 k with
    | some (j, n) => s.modCis i (fun x => { x with frames := x.frames.modify j (fun f => { f with
        weak := f.weak.filter (fun e => decide (e.1 ≠ n)) }) })
    | none => s
  | .scratchpad e a => s.mend (.scratchpad e (a / 8 * 8))
  | _ => s.mend p

/-! ### Accesses to stored words (R484, R486, R488) -/

/-- The stored word behind an address of the parameter space. -/
def wordPlace (p : Place) (o : Nat) : Option PatrolPlace :=
  match p with
  | .orchard r =>
    if 0x10000 ≤ o ∧ o < 0x30000 then
      (if o % 8 = 0 then some (.queueDescriptor (16384 * r + (o - 0x10000) / 8))
       else some (.counterNode (.queue (16384 * r + (o - 0x10000) / 8))))
    else if o = 0x10 then some (.counterNode (.ridge r))
    else if 0x400 ≤ o ∧ o < 0x500 ∧ o % 8 = 0 then some (.counterNode (.cls r ((o - 0x400) / 8)))
    else if o = 0xC0 ∧ r = 0 then some (.counterNode .device)
    else none
  | .dispatcher =>
    if 0x10000 ≤ o ∧ o < 0x50000 then some (.threadEntry ((o - 0x10000) / 32) (o % 32 / 4))
    else if 0x50000 ≤ o ∧ o < 0x70000 then some (.flowEntry ((o - 0x50000) / 8) (o % 8 / 4))
    else none
  | .cairns => some (.cairnEntry (o / 16) (o % 16 / 4))
  | .scratchpad e => some (.scratchpad e (o / 8 * 8))
  | _ => none

/-- The error that a read of an address meets: the scratchpad's own marks, else the word's. -/
def storedUpset (s : State) (p : Place) (o : Nat) : Upset :=
  match p with
  | .scratchpad e => if s.spadBadAt e o then .uncorrectable else if s.weak = [] then .clean else s.weakAt (.scratchpad e (o / 8 * 8))
  | .cistern i => if o = 0x40 ∧ s.cisHeadBad i then .uncorrectable else .clean
  | _ =>
    if (match p with
      | .orchard r => decide (0x100 ≤ o ∧ o < 0x300 ∧ o % 0x20 = 0x10) && s.dqHeadBad r ((o - 0x100) / 0x20)
      | _ => false) then .uncorrectable else
    if s.weak = [] then .clean
    else match wordPlace p o with
      | some q => s.weakAt q
      | none => .clean

/-- A stored word that fails its code at an address (R488). -/
def storedBad (s : State) (p : Place) (o : Nat) : Bool := decide (s.storedUpset p o = .uncorrectable)

/-- What an uncorrectable word met by an access through a port leaves: its log entry, what its storage does, and, where the access
is a read that consumes, the side effect of an RC register (R484, R488). -/
def storedBadLog (s : State) (p : Place) (o port : Nat) (consumes : Bool) : State :=
  let s1 := s.logEvent 0x02 ((ownerOf p).getD 0) (w32 o) 0 port
  match p, wordPlace p o with
  | .scratchpad _, _ => s1
  | .cistern i, _ => if consumes then (s.cisRead i).2 else s1
  | .orchard r, none => if consumes then (s.dqTagRead r ((o - 0x100) / 0x20)).2 else s1
  | _, some (.counterNode n) => ((s1.mend (.counterNode n)).fresh).nodeBad n (Config.freeBit s1.freeCtr)
  | _, some (.queueDescriptor q) => (s1.mend (.queueDescriptor q)).descriptorLost q
  | _, some (.threadEntry t w) => (s1.mend (.threadEntry t w)).threadHalt t
  | _, some (.flowEntry f w) => (s1.mend (.flowEntry f w)).flowLost f
  | _, some (.cairnEntry k w) => (s1.mend (.cairnEntry k w)).cairnDrop k
  | _, _ => s1

/-- A read of an address whose stored word is corrected: counted and logged; only a counter node is written back (R249,
R486). -/
def readMeet (s : State) (p : Place) (o : Nat) : State :=
  if s.storedUpset p o = .corrected then
    match wordPlace p o with
    | some (.counterNode n) => s.meetNode n
    | some q => patrolLog 0x01 q s
    | none => s
  else s

/-- A write that replaces the whole of a stored word clears what error it held (R488). -/
def writeMeet (s : State) (p : Place) (o : Nat) : State :=
  if s.weak = [] then s
  else match p, wordPlace p o with
    | .scratchpad _, _ => s
    | _, some (.counterNode _) => s
    | _, some q => if s.weakAt q = .clean then s else s.mend q
    | _, none => s

end State

end Sys2Proof.Machine
end

