-- ==== Sys2Proof/Machine/Overlays.lean ====
section
/-!
DEFINITION. Overlays and modes (R463-R483): staging, binding, the plane switch, the autonomous switch.
-/
namespace Sys2Proof.Machine

open Sys2Proof

/-- MODE_ENTER accepts a transition (table of mode transitions). -/
def modeAllowed (a b : Mode) : Bool :=
  match a, b with
  | .staging, .service | .staging, .maintain | .staging, .drain => true
  | .service, .staging | .service, .maintain | .service, .holdover | .service, .degraded | .service, .drain => true
  | .maintain, .staging | .maintain, .service | .maintain, .holdover | .maintain, .degraded | .maintain, .drain => true
  | .holdover, .service | .holdover, .maintain | .holdover, .degraded | .holdover, .drain => true
  | .degraded, .service | .degraded, .maintain | .degraded, .holdover | .degraded, .drain => true
  | .drain, .staging | .drain, .service => true
  | _, _ => false

/-- The channel words of an owned channel in OWNERSHIP data: CH_TS_CFG and the STAMP bits. -/
def ownChan (i : Image) (c : Nat) : Word × Word :=
  let k := popCount c (fun x => i.ownsChan x)
  (i.own.getD (23 + 2 * k) 0, i.own.getD (24 + 2 * k) 0)

/-- Domains of the terraces and quads an overlay owns. -/
def ownDomains (i : Image) : List Nat :=
  i.terrs.map terraceId ++ (i.chans.map (fun c => quadId (c / 4))).eraseDups

namespace State

/-- The first owned unit that is off or fenced: its block ID and the reason. -/
def ownBlocked (s : State) (i : Image) : Option (Nat × Byte) :=
  match (ownDomains i).find? (fun d => decide (s.reach d ≠ 0)) with
  | some d => some (d, s.reach d)
  | none => none

/-- Clock outputs an overlay names: terrace lines and bank clocks. -/
def ovlOutputs (i : Image) : List (Nat × Nat) :=
  (i.terrs.flatMap (fun t => (List.range 4).filterMap (fun l =>
    let n := fld (Config.terraceInfo ((i.data 1 t).getD []) 1) (8 * l + 7) (8 * l)
    if n < 8 then some (sourcePll (t / 32) n) else none))) ++
  ((List.range 13).flatMap (fun b => match i.data 3 b with
    | none => []
    | some d => [bankSrc d 0, bankSrc d 1].filterMap (fun n => if n < 8 then some (sourcePll (bankRidge b) n) else none)))

/-- The word a pin has once the overlay is in force. -/
def pinAfter (s : State) (i : Image) (p : Nat) : Word :=
  if i.ownsPin p then bankPin ((i.data 3 (p / 32)).getD []) (p % 32) else (s.pin p).cfg

/-- Step 7 of OVERLAY_STAGE fails. -/
def stageRules (s : State) (i : Image) : Bool :=
  ((List.range 13).any (fun b => match i.data 3 b with
    | none => false
    | some d =>
      (List.range 16).any (fun j => !pairOk (s.bank b).decl (s.pinAfter i (32 * b + 2 * j)) (s.pinAfter i (32 * b + 2 * j + 1))) ||
      (List.range 2).any (fun k =>
        decide (bankSrc d k ≠ (if k = 0 then (s.bank b).src0 else (s.bank b).src1)) &&
        (List.range 32).any (fun q =>
          let x := s.pin (32 * b + q)
          x.configured && !i.ownsPin (32 * b + q) && decide (fld x.cfg 7 7 = k))))) ||
  i.chans.any (fun c => s.chEn c && decide (s.chCoding c = 2) && bit (ownChan i c).1 0)

/-- The checks of OVERLAY_STAGE (R470). -/
def stageCheck (s : State) (n : Nat) : Byte :=
  match (if 1 ≤ n ∧ n ≤ 8 then s.slot n else none) with
  | none => 0x02
  | some i =>
    let base : Option Image := s.boot.base
    let sec := fun ty t => match base with | some b => (b.data ty t).isSome | none => false
    firstRefusal [
      (s.ovl.bound && !s.ovl.auto && decide (s.ovl.id ≠ n), 0x30),
      (i.terrs.any (fun t => !sec 1 t) || i.pins.any (fun p => !sec 3 (p / 32)), 0x15),
      ((ownDomains i).any (fun d => !s.domainOn d), 0x07),
      ((ownDomains i).any (fun d => s.fenced d), 0x1C),
      (!(ovlOutputs i).all s.outputReady, 0x11),
      (s.stageRules i, 0x02),
      (!spinesOk (match base with | some b => b.sections | none => []) i.sections, 0x17)]

/-- SHADOW_OK and staging end in the terraces of the overlay staged or staging. -/
def clearShadows (s : State) : State :=
  match s.ovl.image with
  | none => s
  | some i => i.terrs.foldl (fun (s : State) t => s.modTerr t (fun x => { x with shadowOk := false, stagingShadow := false })) s

/-- The overlay stops being staged (R472). -/
def unstageOverlay (s : State) : State :=
  let s1 := s.clearShadows
  { s1 with ovl := { s1.ovl with id := 0, busy := false, ready := false, image := none } }

/-- The switch-off of a domain that holds an owned terrace or quad: the overlay is no longer staged; REASON 0x07 (R472). -/
def overlayDomainOff (s : State) (d : Nat) : State :=
  match s.ovl.image with
  | none => s
  | some i =>
    if (ownDomains i).any (fun x => decide (x = d) || decide (parentOf x = d)) then
      let s1 := s.clearShadows
      { s1 with ovl := { s1.ovl with
          id := if s1.ovl.bound then s1.ovl.id else 0, image := if s1.ovl.bound then s1.ovl.image else none,
          busy := false, ready := false, reason := 0x07 } }
    else s

/-- OVERLAY_STAGE; a slot that reads uncorrectable is emptied and ends it with a fault, a corrected error is logged (R484, R486,
R489). -/
def opOverlayStage (s0 : State) (ovl : Word) : OpRes :=
  let n := ovl.toNat
  let u := s0.weakAt (.overlayStore n)
  let s := if u = .corrected then patrolLog 0x01 (.overlayStore n) s0 else s0
  let r := s.stageCheck n
  if u = .uncorrectable then opFault ((s0.mend (.overlayStore n)).patrolLost (.overlayStore n)) 0x03 []
  else if r ≠ 0 then opRefuse s r
  else if s.ovl.id = n ∧ (s.ovl.busy ∨ s.ovl.ready) then opDone s []
  else
    match s.slot n with
    | none => opRefuse s 0x02
    | some i =>
      let s1 := s.unstageOverlay
      let s2 := { s1 with ovl := { s1.ovl with id := n, busy := true, ready := false, image := some i } }
      opDone (i.terrs.foldl (fun (s : State) t =>
        s.modTerr t (fun x => { x with
          shadowOk := false, stagingShadow := true, shadowSrc := 15
          repairs := x.repairs.filter (fun l => decide (bit l 31 = x.plane)) })) s2) []

/-- The shadow planes are written (R471). -/
def stagingDone (s : State) : State :=
  match s.ovl.image with
  | none => s
  | some i =>
    let s1 := { s with ovl := { s.ovl with busy := false, ready := true } }
    i.terrs.foldl (fun (s : State) t => s.modTerr t (fun x => { x with
      shadow := (i.data 1 t).getD [], shadowOk := true, stagingShadow := false, shadowSrc := s.ovl.id, shadowImage := i.id })) s1

/-- Steps 4 to 7 of the binding checks (R473). -/
def bindCheck (s : State) (n k : Nat) : Byte :=
  let c := s.cairn k
  firstRefusal [
    (s.ovl.bound, 0x30),
    (decide (s.ovl.id ≠ n) || (!s.ovl.busy && !s.ovl.ready), 0x1E),
    (decide (c.kind ≠ 2) || c.bound, 0x02),
    (c.committed || reached s.tb.fp c.pos, 0x21)]

/-- The switch is bound to slot k, which is armed when its time has come (R127, R474). -/
def bindSwitch (s : State) (k : Nat) (modeEnter : Bool) : State :=
  let s1 := { s with ovl := { s.ovl with bound := true, auto := false, cairn := k, modeEnter := modeEnter } }
  let s2 := s1.modCairn k (fun c => { c with bound := true })
  if s2.armDue k then s2.arm k else s2

/-- OVERLAY_APPLY. -/
def opOverlayApply (s : State) (ovl cairn : Word) : OpRes :=
  let n := ovl.toNat
  let k := cairn.toNat
  if n < 1 ∨ 8 < n ∨ 4095 < k then opRefuse s 0x02
  else if n ≤ 6 ∧ n ≠ s.mode.code then opRefuse s 0x02
  else
    let r := s.bindCheck n k
    if s.cairnBad k then opFault (s.cairnLost k) 0x03 []
    else if r ≠ 0 then opRefuse s r else opDone ((s.cairnMeet k).bindSwitch k false) []

/-- MODE_ENTER. -/
def opModeEnter (s : State) (mode cairn : Word) : OpRes :=
  let n := mode.toNat
  let k := cairn.toNat
  match (if n ≤ 6 ∧ k ≤ 4095 then Mode.ofCode n else none) with
  | none => opRefuse s 0x02
  | some m =>
    if m = s.mode then opRefuse s 0x02
    else if !modeAllowed s.mode m then opRefuse s 0x05
    else
      let r := s.bindCheck n k
      if s.cairnBad k then opFault (s.cairnLost k) 0x03 []
      else if r ≠ 0 then opRefuse s r
      else if m = .service ∧ s.refSel ≠ 0 ∧ !s.tb.lock then opRefuse s 0x1B
      else opDone ((s.cairnMeet k).bindSwitch k true) []

/-- One owned terrace switches plane; each of the clock lines listed, which run, follows at its first edge (R129, R468, R477,
R478). -/
def Terrace.switchPlane (lines : List Nat) (x : Terrace) : Terrace :=
  { x with
    old := x.config, late := lines, waits := !lines.isEmpty, plane := !x.plane, config := x.shadow, shadow := x.config, activeSrc := x.shadowSrc, activeImage := x.shadowImage,
    shadowSrc := x.activeSrc, shadowImage := x.activeImage, shadowOk := false, switches := min 0xFFFF (x.switches + 1) }

/-- Terrace t switches plane. A clock line keeps the enable that it had; one that was not user-gated was enabled (R342). -/
def terrSwitch (s : State) (t : Nat) : State :=
  let lines := (List.range 4).filter (s.lineRuns t)
  let gates := (List.range 4).map (fun l => if s.lineGated t l then (s.user t).gate l else {})
  let s1 := if (s.user t).live then s.modUser t (fun u => { u with gates := gates }) else s
  s1.modTerr t (Terrace.switchPlane lines)

/-- An owned pin takes its new configuration at the next edge of its bank clock, so that the word it sends is completed; at once
where that clock does not run (R320). -/
def pinSwitch (s : State) (p : Nat) (w : Word) (n : Nat) : State :=
  let k := s.padSource p
  let clocked := decide (k < 8) && (let (q, o) := sourcePll (bankRidge (p / 32)) k; s.pllOut q o)
  let s1 := s.modPin p (fun x => if clocked then { x with next := some (w, n) } else { x with cfg := w, src := n, next := none })
  if pinCairn w then s1.takeHold p else s1

/-- The switch of the staged overlay i acts at every target (R320, R342, R477). -/
def planeSwitch (s : State) (i : Image) : State :=
  let n := s.ovl.id
  let s1 := i.terrs.foldl (fun (s : State) t => s.terrSwitch t) s
  let s2 := (List.range 13).foldl (fun (s : State) b => match i.data 3 b with
    | none => s
    | some d => s.modBank b (fun x => { x with src0 := bankSrc d 0, src1 := bankSrc d 1 })) s1
  let s3 := i.pins.foldl (fun (s : State) p => s.pinSwitch p (bankPin ((i.data 3 (p / 32)).getD []) (p % 32)) n) s2
  let s4 := i.chans.foldl (fun (s : State) c =>
    let (ts, st) := ownChan i c
    let s' := s.setRf (aCh c + 0x800) 13 0 (fld ts 13 0)
    (List.range 8).foldl (fun (s : State) q => s.setRb (aCh c + 0x100 + 4 * q) 0 (bit st q)) s') s3
  { s4 with ovl := { s4.ovl with
      id := 0, busy := false, ready := false, image := none, bound := false, auto := false, autoAt := 0, cairn := 0,
      modeEnter := false, chanSrc := i.chans.foldl (fun t c => Table.set (fun _ => 0) t c n) s4.ovl.chanSrc } }

/-- The binding ends with a cause in OVL_STAT.REASON. -/
def unbindWith (s : State) (cause : Nat) : State :=
  let s1 := s.unbindSwitch
  { s1 with ovl := { s1.ovl with reason := cause } }

/-- The pending autonomous switch to overlay 4 acts (R482); where overlay 4 is staged no longer, its shadow lost or another overlay
staged in its place, it misses with cause 0x1E (R470, R494). -/
def autoSwitch (s : State) : State :=
  let s0 := { s with mode := .holdover }
  match s.ovl.image with
  | none => s0.unbindWith 0x1E
  | some i =>
    match s.ownBlocked i with
    | some (d, r) => (s0.unbindWith r.toNat).logEvent 0x41 0x0000 (w32 d) 0 0
    | none => if s.ovl.ready ∧ s.ovl.id = 4 then s0.planeSwitch i else s0.unbindWith 0x1E

end State

open State

/-- STAGING_END: background staging ends (R471). -/
def execStagingEnd (dt : Nat) (s : State) : Out :=
  event dt s (fun s => if s.ovl.busy then s.stagingDone else s)

/-- AUTONOMOUS_SWITCH: the first frame start at least 250 µs after the declaration (R482). -/
def execAutonomousSwitch (dt : Nat) (s : State) : Out :=
  event dt s (fun s => if s.ovl.bound ∧ s.ovl.auto ∧ reached s.tb.fp s.ovl.autoAt then s.autoSwitch else s)

end Sys2Proof.Machine
end

