-- ==== Sys2Proof/Machine/Reliability.lean ====
section
/-!
DEFINITION. Scrubbers, frame repair and restore, the error log's commands, page retirement (R484-R508, R415, R416).
-/
namespace Sys2Proof.Machine

open Sys2Proof State

/-- REL_PATROL. -/
def aPatrol : Nat := 0xD00100

namespace State

/-! ### Configuration scrubbing (R491-R495) -/

/-- Two locations lie in one frame. -/
def sameFrame (a b : Word) : Bool := decide (a.toNat / 4096 = b.toNat / 4096)

/-- An uncorrectable frame of the plane in force: the bay stays held until the frame is restored (R493). A bay that a repair
holds already keeps the outputs of that hold. -/
def lostInForce (s : State) (t bay : Nat) (loc : Word) : State :=
  let x := s.terr t
  let s1 := (s.setRb (aScrub t) 30 true).logEvent 0x04 (terraceId t) loc 0 0
  let s2 := if x.holds s.now bay then s1 else s1.userHold t bay
  if x.lost.any (fun f => sameFrame f.loc loc) then s1
  else s2.modTerr t (fun y => { y with
    lost := y.lost ++ [{ bay := bay, loc := loc }], lastBay := bay, holdStarts := y.heldSince s.now ++ [(bay, s.now)] })

/-- An uncorrectable frame of the shadow plane: a staged overlay stops being staged (R494). -/
def lostInShadow (s : State) (t : Nat) (loc : Word) : State :=
  let s1 := (s.setRb (aScrub t) 30 true).logEvent 0x04 (terraceId t) loc 0 0
  if (s.terr t).shadowOk then
    let s2 := s1.clearShadows
    { s2 with ovl := { s2.ovl with
        id := if s2.ovl.bound then s2.ovl.id else 0, image := if s2.ovl.bound then s2.ovl.image else none,
        ready := false, reason := 0x03 } }
  else s1

/-- Where a held frame of terrace t is restored from: slot n, the flash copy (0), or nowhere (R493). -/
def restoreSource (s : State) (t : Nat) (crcOk : Bool) : Option Nat :=
  let x := s.terr t
  if x.activeSrc = 0 then (if s.reg 0x1800C ≠ 0xFFFFFFFF ∧ crcOk then some 0 else none)
  else
    match s.slot x.activeSrc with
    | some i => if i.id = x.activeImage then some x.activeSrc else none
    | none => none

/-! ### The error log (R502-R508) -/

/-- LOG_OLDEST. -/
def logOldest (s : State) : Nat := match s.log.entries with | [] => 0 | x :: _ => x.seq

/-- The distance from a to b in the log's numbering, which has 2^32 - 1 numbers. -/
def seqDist (a b : Nat) : Nat := (b + (2 ^ 32 - 1) - a) % (2 ^ 32 - 1)

/-- The eight words LOG_READ returns for a number. -/
def logWords (s : State) (n : Nat) : List Word :=
  match s.log.entries.find? (fun x => decide (x.seq = n)) with
  | some x => x.words
  | none => [0, w32 n, 0, 0, 0, 0, 0, 0]

/-- LOG_READ of consecutive numbers. -/
def logRun (s : State) : Nat → Nat → List Word
  | 0, _ => []
  | k + 1, n => s.logWords n ++ s.logRun k (nextSeq n)

/-- A read of the log meets the entries that hold an error: an uncorrectable one reads with CORRUPT = 1, a corrected one is
logged (R484, R486). -/
def logMeet (s : State) (first count : Nat) : State :=
  s.weak.foldl (fun (s : State) e =>
    match e with
    | (.logEntry n, .uncorrectable) =>
      if seqDist first n < count then (s.mend (.logEntry n)).patrolLost (.logEntry n) else s
    | (.logEntry n, .corrected) => if seqDist first n < count then patrolLog 0x01 (.logEntry n) s else s
    | _ => s) s

/-- LOG_READ (R505). -/
def opLogRead (s0 : State) (first count : Word) : OpRes :=
  let s := s0.logMeet first.toNat count.toNat
  if count.toNat < 1 ∨ 64 < count.toNat then opRefuse s0 0x02 else opDone s (s.logRun count.toNat first.toNat)

/-- LOG_ACK (R506); an entry stored in its clock has a later number and stays held. -/
def opLogAck (s : State) (n : Word) : OpRes :=
  let k := n.toNat
  let oldest := if s.log.entries.isEmpty then nextSeq s.log.newest else s.logOldest
  let held := if s.log.entries.isEmpty then 0 else seqDist oldest s.log.newest + 1 - s.tick.logged
  if k = 0 then opDone s []
  else if seqDist oldest k < held then
    opDone { s with log := { s.log with
      entries := s.log.entries.filter (fun x => decide (seqDist oldest k < seqDist oldest x.seq)) } } []
  else if 0 < seqDist k oldest ∧ seqDist k oldest ≤ 2 ^ 31 then opDone s []
  else opRefuse s 0x02

/-- A write to LOG_INJECT (R508). -/
def logInject (s : State) (v : Word) : WRes :=
  if 1024 - s.log.entries.length ≤ 32 then (s, 0x34) else (s.logEvent 0x60 0x0008 v 0 0, 0)

/-! ### Page retirement (R415, R416) -/

/-- The spill page that channel page p of channel d is, in use by a queue. -/
def spillInUse (s : State) (d p : Nat) : Bool := decide (4 * p + d % 4 ∈ (s.oridge (d / 4)).spillUsed)

/-- PAGE_RETIRE. -/
def opPageRetire (s : State) (ch hi lo : Word) : OpRes :=
  let d := ch.toNat
  let p := lo.toNat / 4096
  let bad := firstRefusal [
    (decide (15 < d) || decide (hi ≠ 0) || decide (lo.toNat % 4096 ≠ 0) || decide (s.drBytes d ≤ lo.toNat), 0x02),
    (!s.domainOn (ridgeId (d / 4)), 0x07),
    (!(s.dr d).trained, 0x19),
    ((s.dr d).retired.any (fun r => decide (r.page = p)), 0x1F),
    (decide (1024 ≤ (s.dr d).retired.length), 0x02)]
  if bad ≠ 0 then opRefuse s bad
  else
    let pend := s.spillInUse d p
    let s1 := s.modDr d (fun x => { x with retired := x.retired ++ [{ page := p, pending := pend }] })
    opDone (if pend then s1 else s1.countRetire.logEvent 0x11 (dramId d) (w32 p) 0 0) []

end State

open State

/-! ### Events -/

/-- The frame of the plane in force or of the shadow plane is the one the scrubber reads in the present clock (R491). -/
def State.scrubsNow (s : State) (t : Nat) (shadow : Bool) (bay frame : Nat) : Bool :=
  s.scrubs t && decide ((s.terr t).scrub.reads = some ((if shadow then 4608 else 0) + 9 * bay + frame))

/-- The read of the present clock has been judged: a frame is repaired or lost once at a read (R492, R493). -/
def State.scrubTold (s : State) (t : Nat) : State := s.modTerr t (fun y => { y with scrub := { y.scrub with reads := none } })

/-- CONFIG_SCRUB_READ: what the scrubber finds in the frame it reads, of the plane in force or of the shadow plane
(R491-R495). -/
def execConfigScrubRead (t : Nat) (shadow : Bool) (bay frame word bitNo : Nat) (got : Upset) (dt : Nat) (s : State) : Out :=
  let ok := decide (t < 128 ∧ bay < 512 ∧ frame < 9 ∧ word < 63 ∧ bitNo < 39)
  unitEvent ok dt s (fun s =>
    let x := s.terr t
    let loc := frameLoc (x.plane != shadow) bay frame word bitNo
    if !s.scrubsNow t shadow bay frame || (shadow && x.stagingShadow) then s
    else match got.seen, shadow with
    | .corrected, _ => (s.scrubTold t).repair t loc
    | .uncorrectable, true => (s.scrubTold t).lostInShadow t loc
    | .uncorrectable, false => (s.scrubTold t).lostInForce t bay loc
    | _, _ => s)

/-- FRAME_RESTORE: the Gatehouse restores the first lost frame it has tried no source for, or finds none (R493); it waits while
R495 says so. -/
def execFrameRestore (t : Nat) (crcOk : Bool) (dt : Nat) (s : State) : Out :=
  unitEvent (decide (t < 128)) dt s (fun s =>
    let l := (s.terr t).lost
    match l.find? (fun f => !f.noSource) with
    | none => s
    | some f =>
      if s.switchNear t || !(s.terr t).configured then s
      else match s.restoreSource t crcOk with
      | some n => (s.modTerr t (fun y => { y with lost := l.erase f })).logEvent 0x05 (terraceId t) f.loc 0 n
      | none =>
        ((s.modTerr t (fun y => { y with
            lost := l.map (fun g => if g = f then { g with noSource := true } else g) })).setRb (aScrub t) 28 true).logEvent
          0x06 (terraceId t) f.loc 0 0)

/-- BRAM_SCRUB_READ: what the hidden scrub port of a memory finds in the word it reads now (R496). -/
def execBramScrubRead (t m addr : Nat) (got : Upset) (dt : Nat) (s : State) : Out :=
  unitEvent (decide (t < 128 ∧ m < 32 ∧ addr < 1024)) dt s (fun s =>
    let u := s.user t
    if s.terrUp t ∧ (u.scrubPort m).2 = some addr then
      let told := ((List.range 32).map u.scrubPort).set m ((u.scrubPort m).1, none)
      let us := s.bramReads t m addr [got.seen]
      bramTold t m addr us ((s.modUser t (fun y => { y with scrub := told })).bramTake t m addr us)
    else s)

/-- The pass period of the patrol scrubbers, ps (R497). -/
def State.patrolPeriod (s : State) : Nat := max 1 (s.rf aPatrol 23 16) * 10 ^ 10

/-- A place that names one stored word for good; the others name what they hold, wherever it lies. -/
def patrolWord : PatrolPlace → Bool
  | .queueDescriptor _ | .counterNode _ | .scratchpad .. | .threadEntry .. | .flowEntry .. | .cairnEntry .. => true
  | _ => false

/-- A scrubber may read a place now: it is enabled, its memory powered and filled, and the word was not read within the present
period (R444, R497). -/
def State.patrolMay (s : State) (p : PatrolPlace) : Bool :=
  let d := domainOf (patrolBlock p).1
  (if d = 0 then s.gh.ready else s.domainOn d && Table.get (fun _ => false) s.pwr.filled d) && s.rb aPatrol (patrolBit p) &&
    s.patrolled.all (fun e => !decide (e.1 = p) || decide (e.2 + s.patrolPeriod ≤ s.now))

/-- A scrubber has read a word; words last read before the period are no longer listed. -/
def State.patrolRead (s : State) (p : PatrolPlace) : State :=
  { s with patrolled := s.patrolled.filter (fun e => !decide (e.1 = p) && decide (s.now < e.2 + s.patrolPeriod)) ++
      (if patrolWord p then [(p, s.now)] else []) }

/-- PATROL_SCRUB_READ: a patrol scrubber reads a place and writes it back, meeting the error that the place holds or, when it holds
none, the one the row gives; or the place takes the error the row gives, which its next reader meets (R484, R486-R488, R497; DESIGN
CHOICE, log entry 74). -/
def execPatrolScrubRead (place : PatrolPlace) (got : PatrolGot) (dt : Nat) (s : State) : Out :=
  unitEvent (patrolOk place) dt s (fun s =>
    match got with
    | .struck u => s.takeUpset place u.seen
    | .reads u =>
      if !s.patrolMay place then s
      else
        let s1 := s.patrolRead place
        let held := s.heldUpset place
        match (if held = .clean then u.seen else held) with
        | .corrected =>
          let s2 := match place with
            | .counterNode n => s1.orcCount (nodeRidge n) 7 1
            | _ => s1
          patrolLog 0x01 place (s2.rewrite place)
        | .uncorrectable => (s1.rewrite place).patrolLost place
        | _ => s1)

end Sys2Proof.Machine
end

