-- ==== Sys2Proof/Machine/Units.lean ====
section
/-!
DEFINITION. The loss of a domain's state and the return of units to their Reset values with zeroed memories (R78, R205,
R254, R274, R308, R392, R414, R444, R517, R556).
-/
namespace Sys2Proof.Machine

open Sys2Proof State

/-- The power domains by block ID (R33): the device, ridges, terraces, pavilions, quads. -/
def allDomains : List Nat :=
  0 :: ((List.range 4).map ridgeId ++ (List.range 128).map terraceId ++ (List.range 8).map pavilionId ++
    (List.range 36).map quadId)

/-- The unit domains of a ridge. -/
def unitDomains (r : Nat) : List Nat := allDomains.filter (fun d => decide (parentOf d = ridgeId r))

namespace State

/-- The registers of the places that satisfy a test return to their Reset column (R78). -/
def clearPlaces (s : State) (f : Place → Bool) : State :=
  let hit := fun (a : Nat) => match placeOf a with | some (p, _) => f p | none => false
  { s with regs := Table.keep s.regs (fun a _ => !hit a), latch := Table.keep s.latch (fun k _ => !hit (4 * k)) }

/-- Memories written anew hold no error (R444, R522). -/
def weakClear (s : State) (f : PatrolPlace → Bool) : State := { s with weak := s.weak.filter (fun e => !f e.1) }

/-- Cistern i returns to Reset, its lines zero (R205); a frame it was feeding to a queue goes with them (R223, R229). -/
def cisReset (s : State) (i : Nat) : State :=
  ((s.clearPlaces (fun p => decide (p = .cistern i))).setCis i {}).cutFeed i

/-- Channel c and its lane return to Reset; launch and retry buffers and stamps are empty. -/
def chanReset (s : State) (c : Nat) : State :=
  let s1 := s.clearPlaces (fun p => decide (p = .channel c) || decide (p = .lane c) || decide (p = .txPreset c))
  let s2 := (((s1.setChan c {}).setLane c {}).cisReset c).weakClear (fun p => match p with
    | .launchBuffer d _ | .retryBuffer d => decide (d = c)
    | _ => false)
  { s2 with stamps := Table.set (fun _ => {}) s2.stamps (64 + c) {} }

/-- Quad q returns to Reset. -/
def quadReset (s : State) (q : Nat) : State :=
  (List.range 4).foldl (fun (s : State) k => s.chanReset (4 * q + k))
    ((s.clearPlaces (fun p => decide (p = .quad q))).setScan q none)

/-- Terrace t loses configuration, flip-flops, slices and block memories (R308, R517). -/
def fabricReset (s : State) (t : Nat) : State :=
  (((s.clearPlaces (fun p => decide (p = .terrace t))).bramLoad t []).setTerr t {}).userGone t

/-- Terrace t loses its state, and its Cistern is empty (R205, R308). -/
def terrReset (s : State) (t : Nat) : State := (s.cisReset (144 + t)).fabricReset t

/-- The scratchpad of engine e holds zeros with a valid code. -/
def spadZero (s0 : State) (e : Nat) : State :=
  let s := s0.weakClear (fun p => match p with | .scratchpad f _ => decide (f = e) | _ => false)
  { s with
    spad := Table.keep s.spad (fun k _ => decide (k / spadSize ≠ e))
    spadBad := Table.keep s.spadBad (fun k _ => decide (k / 32768 ≠ e)) }

/-- Pavilion p returns to Reset: engines STOPPED with zeroed banks and scratchpads. -/
def pavReset (s : State) (p : Nat) : State :=
  let s1 := s.clearPlaces (fun x => match x with
    | .engine e => decide (e / 8 = p)
    | .pavilion q => decide (q = p)
    | _ => false)
  (List.range 8).foldl (fun (s : State) k => (s.setEng (8 * p + k) {
    runTime := (s.eng (8 * p + k)).runTime, idleTime := (s.eng (8 * p + k)).idleTime }).spadZero (8 * p + k)) s1

/-- A staged thread's context is in the second bank, or its thread runs: nothing waits in the save area, which only an unstaging
would miss (DEDUCED, log entry 79). -/
def contextTaken (s : State) (t : Nat) : Bool :=
  match (s.thread t).st with
  | .running | .ending => true
  | .staged => (s.eng (s.thread t).engine).stagedReady
  | _ => false

/-- Contexts saved in the scratchpads of pavilion p are lost (R392). -/
def contextsLost (s : State) (p : Nat) : State :=
  s.dsp.threads.foldl (fun (s : State) e =>
    let t := e.1
    if e.2.saved ∧ s.thCtxEng t / 8 = p then
      if s.contextTaken t then s.modThread t (fun x => { x with gone := true }) else s.contextLost t
    else s) s

/-- The Orchard of ridge r returns to Reset: its queues hold nothing, its nodes read 0, with ridge 0's the device node, which lies in
its range (R254); a frame of another ridge that has cells in this ridge's pool ends with ABORT. With an audit that runs there, the
next one starts (R251, R252). -/
def orchardReset (s : State) (r : Nat) : State :=
  let s1 := (s.orcOff r).weakClear (fun p => match p with
    | .orchardTag q | .queueDescriptor q => decide (queueRidge q = r)
    | .counterNode n => decide (nodeRidge n = r)
    | _ => false)
  let s2 := s1.clearPlaces (fun p => match p with
    | .orchard q => decide (q = r)
    | .bankGroup n => decide (n / 4 = r)
    | _ => false)
  let audits := s2.orc.audits.filter (fun e => decide (nodeRidge e.1 ≠ r))
  let s3 := { s2 with orc := { s2.orc with
      queues := Table.mapAll (fun _ => {}) (Table.keep s2.orc.queues (fun q _ => decide (queueRidge q ≠ r))) (fun _ q =>
        { q with frames := q.frames.map (fun f => if r ∈ f.cells.drop f.freed then { f with abort := true } else f) })
      classes := Table.keep s2.orc.classes (fun k _ => decide (k / 32 ≠ r))
      ridgeNodes := Table.keep s2.orc.ridgeNodes (fun k _ => decide (k ≠ r))
      windows := Table.keep s2.orc.windows (fun k _ => decide (k / 16 ≠ r))
      ridges := Table.keep s2.orc.ridges (fun k _ => decide (k ≠ r))
      fetchWait := s2.orc.fetchWait.filter (fun q => decide (queueRidge q ≠ r))
      spillWait := s2.orc.spillWait.filter (fun q => decide (queueRidge q ≠ r))
      device := if r = 0 then {} else s2.orc.device
      audits := audits } }
  if audits.head? = s2.orc.audits.head? then s3 else s3.auditStart

/-- DRAM channel d loses contents, training, list and counters (R414). -/
def dramReset (s : State) (d : Nat) : State := (s.clearPlaces (fun p => decide (p = .dram d))).setDr d {}

/-- The routers and gateway of ridge r return to Reset. -/
def meshReset (s : State) (r : Nat) : State :=
  let s1 := s.clearPlaces (fun p => match p with
    | .gateway q => decide (q = r)
    | .router w => decide (w / 16 = r)
    | _ => false)
  { s1 with rw := { s1.rw with
      routers := Table.keep s1.rw.routers (fun w _ => decide (w / 16 ≠ r))
      stats := Table.keep s1.rw.stats (fun p _ => decide (p / 0x80 ≠ r))
      cutGateways := s1.rw.cutGateways.filter (fun k => decide (k ≠ r)) } }

/-- Ridge r returns to Reset. -/
def ridgeReset (s : State) (r : Nat) : State :=
  (List.range 4).foldl (fun (s : State) k => s.dramReset (4 * r + k)) ((s.orchardReset r).meshReset r)

/-- The state of a domain is lost; series of its ports are dropped (R274, R555). -/
def domainReset (s : State) (d : Nat) : State :=
  let n := d % 0x400
  let s1 := match d / 0x400 with
    | 1 => s.ridgeReset n
    | 2 => s.terrReset n
    | 3 => (s.contextsLost n).pavReset n
    | 5 => s.quadReset n
    | _ => s
  s1.dropSeries d

end State

end Sys2Proof.Machine
end

