-- ==== Sys2Proof/Machine/EngineCmds.lean ====
section
/-!
DEFINITION. ENGINE_LOAD, ENGINE_START and ENGINE_STOP (R345-R347), and the run of one fetched instruction for a step (R535).
-/
namespace Sys2Proof.Machine

open Sys2Proof

namespace State

/-- The engine whose scratchpad holds the running trace's buffer (R538). -/
def traceEngine (s : State) (e : Nat) : Bool := s.rb 0xE80000 0 && decide (s.rf 0xE80000 15 10 = e)

/-- External writes of words to a scratchpad: a 64-bit word both of whose halves are written loses its mark; a half of an
uncorrectable word is not written, and `false` tells of it (R488). -/
def spadWords (s : State) (e : Nat) : Nat → List Word → Bool × State
  | _, [] => (true, s)
  | a, w :: rest =>
    let both := decide (a % 8 = 0) && !rest.isEmpty
    let s0 := if both then { s with spadBad := Table.set (fun _ => false) s.spadBad (e * (spadSize / 8) + a / 8) false } else s
    if s0.spadBadAt e a then
      let r := s0.spadWords e (a + 4) rest
      (false, r.2)
    else (s0.spadPut e a w).spadWords e (a + 4) rest

/-- ENGINE_LOAD (R345); a closed pavilion gate keeps the scratchpad from it (R339; DEDUCED, log entry 79). -/
def opEngineLoad (s : State) (engine offset : Word) (words : List Word) : OpRes :=
  let e := engine.toNat
  let o := offset.toNat
  let bad := firstRefusal [
    (decide (63 < e) || decide (o % 4 ≠ 0), 0x02),
    (decide (262144 < o + 4 * words.length), 0x20),
    (decide ((s.eng e).st ≠ .stopped) || s.traceEngine e, 0x30),
    (!s.gateOpen (pavilionId (e / 8)), 0x07)]
  if bad ≠ 0 then opRefuse s bad
  else
    let (ok, s1) := s.spadWords e o words
    let s2 := s1.modEng e (fun x => { x with reservation := none })
    if ok then opDone s2 [] else opFault (s2.logEvent 0x02 (engineId e) (w32 o) 0 0) 0x03 []

/-- ENGINE_START (R346). -/
def opEngineStart (s : State) (engine addr : Word) : OpRes :=
  let e := engine.toNat
  let p := pavilionId (e / 8)
  let bad := firstRefusal [
    (decide (63 < e) || decide (addr.toNat % 4 ≠ 0) || decide (0x40000 ≤ addr.toNat), 0x02),
    (!s.gateOpen p, 0x07),
    (!(s.pll 14).lock, 0x11),
    (decide ((s.eng e).st ≠ .stopped) || s.traceEngine e, 0x30)]
  if bad ≠ 0 then opRefuse s bad
  else
    let x := s.eng e
    opDone ((s.setEng e { x with
      st := .run, bank := false, ctx := { pc := addr.toNat }, tvalid := false, handler := false, fromIdle := false,
      wait := none, stopPending := false, staged := none, stagedReady := false, oldCode := [] }).reloadWdog e) []

/-- ENGINE_STOP (R347): at once, or after the remote access in progress. -/
def opEngineStop (s : State) (engine : Word) : OpRes :=
  let e := engine.toNat
  if 63 < e then opRefuse s 0x02
  else if (s.eng e).st ≠ .stopped ∧ (s.eng e).wait.isSome then
    (s.modEng e (fun x => { x with stopPending := true }), .wait)
  else
    let pc := s.stopPc e
    opDone (s.engineStopNow e) [pc]

end State

/-- The run of an engine command that the decoder gave. -/
def runInstr (i : Instr) (s : State) : Out :=
  match i with
  | .add e rd ra rb => execAdd e rd ra rb s
  | .sub e rd ra rb => execSub e rd ra rb s
  | .adds e rd ra rb => execAdds e rd ra rb s
  | .subs e rd ra rb => execSubs e rd ra rb s
  | .addi e rd ra imm => execAddi e rd ra imm s
  | .slti e rd ra imm => execSlti e rd ra imm s
  | .slt e rd ra rb => execSlt e rd ra rb s
  | .sltu e rd ra rb => execSltu e rd ra rb s
  | .min e rd ra rb => execMin e rd ra rb s
  | .max e rd ra rb => execMax e rd ra rb s
  | .and e rd ra rb => execAnd e rd ra rb s
  | .or e rd ra rb => execOr e rd ra rb s
  | .xor e rd ra rb => execXor e rd ra rb s
  | .andi e rd ra imm => execAndi e rd ra imm s
  | .ori e rd ra imm => execOri e rd ra imm s
  | .xori e rd ra imm => execXori e rd ra imm s
  | .lui e rd imm => execLui e rd imm s
  | .sll e rd ra rb => execSll e rd ra rb s
  | .srl e rd ra rb => execSrl e rd ra rb s
  | .sra e rd ra rb => execSra e rd ra rb s
  | .slli e rd ra rb => execSlli e rd ra rb s
  | .srli e rd ra rb => execSrli e rd ra rb s
  | .srai e rd ra rb => execSrai e rd ra rb s
  | .cls e rd ra => execCls e rd ra s
  | .bexp e rd ra => execBexp e rd ra s
  | .mul16 e rd ra rb => execMul16 e rd ra rb s
  | .mul16u e rd ra rb => execMul16u e rd ra rb s
  | .ldb e rd ra imm => execLdb e rd ra imm s
  | .ldbu e rd ra imm => execLdbu e rd ra imm s
  | .ldh e rd ra imm => execLdh e rd ra imm s
  | .ldhu e rd ra imm => execLdhu e rd ra imm s
  | .ldw e rd ra imm => execLdw e rd ra imm s
  | .ldd e rd ra imm => execLdd e rd ra imm s
  | .stb e rd ra imm => execStb e rd ra imm s
  | .sth e rd ra imm => execSth e rd ra imm s
  | .stw e rd ra imm => execStw e rd ra imm s
  | .std e rd ra imm => execStd e rd ra imm s
  | .stws e rd ra imm => execStws e rd ra imm s
  | .ll e rd ra imm => execLl e rd ra imm s
  | .sc e rd ra imm => execSc e rd ra imm s
  | .beq e ra rb off => execBeq e ra rb off s
  | .bne e ra rb off => execBne e ra rb off s
  | .blt e ra rb off => execBlt e ra rb off s
  | .bge e ra rb off => execBge e ra rb off s
  | .bltu e ra rb off => execBltu e ra rb off s
  | .bgeu e ra rb off => execBgeu e ra rb off s
  | .j e off => execJ e off s
  | .jal e off => execJal e off s
  | .jr e ra => execJr e ra s
  | .jalr e rd ra => execJalr e rd ra s
  | .mac e a x y su => execMac e a x y su s
  | .msu e a x y su => execMsu e a x y su s
  | .mpy e a x y su => execMpy e a x y su s
  | .ftap e a su => execFtap e a su s
  | .ftapn e a su => execFtapn e a su s
  | .aclr e a => execAclr e a s
  | .afrom e a x => execAfrom e a x s
  | .aadd e a => execAadd e a s
  | .ash e a sh => execAsh e a sh s
  | .aexp e a x => execAexp e a x s
  | .amov e a x sh hi => execAmov e a x sh hi s
  | .rpt e useReg len count => execRpt e useReg len count s
  | .mfc e rd n => execMfc e rd n s
  | .mtc e ra n => execMtc e ra n s
  | .reti e => execReti e s
  | .texit e => execTexit e s
  | .yield e => execYield e s
  | .post e rd ra => execPost e rd ra s
  | .wdk e => execWdk e s
  | .pub e flags => execPub e flags s
  | .fence e => execFence e s
  | .brk e => execBrk e s
  | _ => .next s

/-- The engine issues the instruction at its PC: fetch, decode and run; an undefined word is illegal (R351, R353, R356, R370). -/
def State.fetchRun (s : State) (e : Nat) : State :=
  let pc := (s.eng e).ctx.pc
  if spadSize ≤ pc ∨ pc % 4 ≠ 0 then s.issue e id
  else match decodeEngine e (s.codeWord e pc) with
    | none => s.issue e (fun s => s.engineFault e 1 0)
    | some i => match runInstr i s with | .next s1 => s1 | _ => s

end Sys2Proof.Machine
end

