-- ==== Sys2Proof/Machine/Belvedere.lean ====
section
/-!
DEFINITION. Auth levels, engine sessions, capture, trace, BIST, march and the boundary-scan port (R510-R542).
-/
namespace Sys2Proof.Machine

open Sys2Proof State

namespace State

/-! ### Engine sessions (R532-R536) -/

/-- An engine leaves MONITOR: RUN with a thread, else IDLE; the watchdog reloads (R532, R535). -/
def resumeEngine (s : State) (e : Nat) : State :=
  if (s.eng e).st = .monitor then
    ((s.modEng e (fun x => { x with
      st := if x.tvalid then .run else .idle, dbg := { x.dbg with skip := true, watchHit := none } })).reloadWdog e).idleTake e
  else s

/-- A step: one instruction at BLV_EPC, then MONITOR again (R535). -/
def stepEngine (s : State) (e : Nat) : State :=
  if (s.eng e).st = .monitor then
    ((s.modEng e (fun x => { x with
      st := .run, dbg := { x.dbg with stepping := true, skip := true, watchHit := none } })).reloadWdog e).fetchRun e
  else s

/-- Act on the set bits of word w of a request register, for engines in a session. -/
def sessionEach (s : State) (w : Nat) (v : Word) (f : State → Nat → State) : State :=
  (List.range 32).foldl (fun (s : State) k =>
    if bit v k ∧ s.attached (32 * w + k) then f s (32 * w + k) else s) s

/-- A halt request of a session: MONITOR with the cross halt (R532, R536). -/
def haltEngine (s : State) (e : Nat) : State :=
  let x := s.eng e
  if x.st = .run ∨ x.st = .idle then
    if x.wait.isSome then s.modEng e (fun y => { y with dbg := { y.dbg with haltPending := true } })
    else s.monitorEntry e 0 0
  else s

/-- An engine's session ends: it resumes from MONITOR, and a halt or step that waits for its access is gone (R514, R532). -/
def detach (s : State) (e : Nat) : State :=
  (s.resumeEngine e).modEng e (fun x => { x with dbg := { x.dbg with haltPending := false, stepping := false } })

/-- A write to BLV_ATTACH w: the engines whose bit it clears detach (R532). -/
def attachWrite (s : State) (w : Nat) (v : Word) : State :=
  let a := 0xE80100 + 4 * w
  let gone := s.reg a &&& ~~~v
  (List.range 32).foldl (fun (s : State) k => if bit gone k then s.detach (32 * w + k) else s) (s.setReg a v)

/-- The engine of the session registers. -/
def esel (s : State) : Nat := s.rf 0xE80200 5 0

/-- BLV_EREG_DATA as read in MONITOR or FAULT (R534). -/
def eregRead (s : State) : Word :=
  let e := s.esel
  let n := s.rf 0xE80204 5 0
  if (s.eng e).st = .monitor ∨ (s.eng e).st = .fault then
    if s.rb 0xE80204 6 then s.crRead e n else if n < 32 then (s.eng e).g n else 0
  else 0

/-- A write to BLV_EREG_DATA (R534). -/
def eregWrite (s : State) (v : Word) : WRes :=
  let e := s.esel
  let n := s.rf 0xE80204 5 0
  if (s.eng e).st ≠ .monitor then (s, 0x30)
  else if s.rb 0xE80204 6 then
    match s.crWrite e n v with
    | some s1 => (s1, 0)
    | none => (s, 0x02)
  else if n < 32 then (s.modEng e (fun x => x.setG n v), 0) else (s, 0x02)

/-- BLV_EPC as read, and a write to it (R533, R534). -/
def epcRead (s : State) : Word :=
  let x := s.eng s.esel
  if x.st = .monitor ∨ x.st = .fault then w32 x.ctx.pc &&& 0x3FFFC else 0

def epcWrite (s : State) (v : Word) : WRes :=
  if (s.eng s.esel).st ≠ .monitor then (s, 0x30) else (s.modEng s.esel (fun x => x.setPc (v &&& 0x3FFFC).toNat), 0)

/-! ### Auth levels (R510-R514) -/

/-- What Belvedere does in the clock in which the level falls below 3 (R514). -/
def sessionsEnd (s : State) : State :=
  let s1 := (List.range 64).foldl (fun (s : State) e => if s.attached e then s.detach e else s) s
  let s2 := ((s1.setReg 0xE80100 0).setReg 0xE80104 0).setReg 0xE80060 0
  { s2 with engines := Table.mapAll (fun _ => {}) s2.engines (fun _ x => { x with dbg := { x.dbg with bkpt := [], watch := [] } }) }

/-- The level changes; a challenge open at a reset of the level closes. -/
def setAuth (s : State) (n : Nat) : State :=
  let s1 := { s with gh := { s.gh with auth := n } }
  if s.gh.auth = 3 ∧ n < 3 then s1.sessionsEnd else s1

/-- RESET type 0 with the level's consequences (R69, R510, R514). -/
def commandPortReset (s : State) : State := (s.setAuth 0).portReset

/-- The lockout after a wrong response is in force (R513). -/
def lockedOut (s : State) : Bool := match s.gh.lockoutEnd with | some t => decide (s.now < t) | none => false

/-- DEBUG_AUTH phase 0; every one is refused with 0x30 while locked out (R511, R513). -/
def opChallenge (s : State) (level : Word) : OpRes :=
  let n := level.toNat
  if s.lockedOut then opRefuse s 0x30
  else if n < 1 ∨ 3 < n ∨ n ≤ s.gh.auth then opRefuse s 0x02
  else
    let k := s.gh.challengeCount + 1
    let data := [w32 n] ++ (List.range 8).map (Config.randomWord k) ++ [Config.serialLo, Config.serialHi, w32 k]
    opDone { s with gh := { s.gh with
      challengeCount := k, challenge := some { level := n, data := data, closesAt := s.now + 10 ^ 13 } } } data

/-- DEBUG_AUTH phase 1 (R511-R513). -/
def opResponse (s : State) (mac : List Word) : OpRes :=
  match s.gh.challenge with
  | none => opRefuse s 0x02
  | some c =>
    if c.closesAt ≤ s.now then opRefuse { s with gh := { s.gh with challenge := none } } 0x02
    else
      let want := Crypto.hmac384 (Crypto.ofBytes (Config.debugKey c.level)) (Crypto.ofBytes (c.data.flatMap wordBytes))
      let s1 := { s with gh := { s.gh with challenge := none } }
      if Crypto.ofBytes (mac.flatMap wordBytes) = want then opDone (s1.setAuth c.level) []
      else opRefuse { s1 with gh := { s1.gh with lockoutEnd := some (s.now + 10 ^ 12) } } 0x06

/-- DEBUG_AUTH phase 2 (R511). -/
def opLower (s : State) (level : Word) : OpRes :=
  if s.gh.auth < level.toNat then opRefuse s 0x02
  else
    let s1 := if level = 0 ∧ s.gh.auth ≠ 0 then { s with gh := { s.gh with challenge := none } } else s
    opDone (s1.setAuth level.toNat) []

/-! ### BIST (R515-R518) -/

/-- The sets of a mask in ascending order. -/
def setsOf (mask : Nat) : List Nat := (List.range 6).filter (fun k => decide (mask / 2 ^ k % 2 = 1))

/-- A BIST or march run is in progress. -/
def selfTest (s : State) : Bool := !s.bist.setsLeft.isEmpty || s.bist.march.isSome

/-- The places a set tests (R515). -/
def setTests (n : Nat) (p : Place) : Bool :=
  match p with
  | .channel _ | .quad _ | .lane _ | .txPreset _ => decide (n = 0) || (decide (n = 5) && (match p with | .channel _ => true | _ => false))
  | .cistern i => (decide (n = 0) && decide (i < 144)) || decide (n = 5)
  | .router _ | .gateway _ | .hub => decide (n = 1)
  | .orchard _ | .bankGroup _ => decide (n = 1) || decide (n = 5)
  | .engine _ | .pavilion _ => decide (n = 2)
  | .scratchpad _ => decide (n = 2) || decide (n = 5)
  | .dram _ => decide (n = 3) || decide (n = 5)
  | .terrace _ | .window _ => decide (n = 4)
  | _ => false

/-- The place is a tested unit of the set running (R517). -/
def bistHolds (s : State) (p : Place) : Bool := !s.bist.setsLeft.isEmpty && setTests s.bist.setNow p

/-- A command for a unit touches a tested unit: the unit itself, or a part of it that set 5 tests by itself, an engine's scratchpad. -/
def bistTouches (s : State) (p : Place) : Bool :=
  s.bistHolds p || (match p with | .engine e => s.bistHolds (.scratchpad e) | _ => false)

/-- The domains of the units a set tests. -/
def setDomains (n : Nat) : List Nat :=
  let ridges := (List.range 4).map ridgeId
  let quads := (List.range 36).map quadId
  let terrs := (List.range 128).map terraceId
  let pavs := (List.range 8).map pavilionId
  match n with
  | 0 => quads
  | 1 => ridges
  | 2 => pavs
  | 3 => ridges
  | 4 => terrs
  | _ => ridges ++ quads ++ terrs ++ pavs

def noChan (s : State) : Bool := (List.range 144).all (fun c => !s.chEn c)
def noEng (s : State) : Bool := (List.range 64).all (fun e => decide ((s.eng e).st = .stopped))
def noDram (s : State) : Bool := (List.range 16).all (fun d => !s.drEn d)
def noOrc (s : State) : Bool := (List.range 4).all (fun r => !s.orcEn r)

/-- A set's quiet condition (R515). -/
def setQuiet (s : State) (n : Nat) : Bool :=
  match n with
  | 0 => s.noChan
  | 2 => s.noEng
  | 3 => s.noDram
  | 4 => s.boot.base.isNone
  | 5 => s.noChan && s.noEng && s.noDram && s.noOrc
  | _ => true

/-- A set's modes (R515). -/
def setMode (s : State) (n : Nat) : Bool :=
  decide (s.mode = .boot) || (decide (n ≠ 1 ∧ n ≠ 4) && (decide (s.mode = .staging) || decide (s.mode = .drain)))

/-- The result block of set n, of the march. -/
def aBist (n : Nat) : Nat := 0xE00100 + 0x20 * n
def aMarch : Nat := 0xE00200

/-- The lanes of tested quads are in electrical idle (R517). -/
def lanesIdle (s : State) : State :=
  { s with lanes := Table.mapAll (fun _ => {}) s.lanes (fun _ l => { l with st := .off, synth := false, loopKind := 0 }) }

/-- BIST_RUN (R516). Set 0, which tests the quads, always runs first. -/
def opBistRun (s : State) (mask : Word) : OpRes :=
  let m := mask.toNat
  let sets := setsOf m
  let bad := firstRefusal [
    (decide (m = 0) || decide (63 < m), 0x02),
    (s.selfTest, 0x30),
    (!sets.all s.setMode, 0x05),
    (sets.any (fun n => (setDomains n).any (fun d => !s.domainOn d)), 0x07),
    (!sets.all s.setQuiet, 0x30)]
  if bad ≠ 0 then opRefuse s bad
  else
    let s1 := sets.foldl (fun (s : State) n => s.setReg (aBist n) (resStart (s.reg (aBist n)))) s
    let s2 := if 0 ∈ sets then s1.lanesIdle else s1
    opDone { s2 with bist := { s2.bist with setsLeft := sets, mask := m, setNow := sets.headD 0 } } []

/-- The units of a set return to Reset values with zeroed memories (R517). -/
def setReset (s : State) (n : Nat) : State :=
  let each := fun (k : Nat) (f : State → Nat → State) (s : State) => (List.range k).foldl f s
  match n with
  | 0 => each 36 quadReset s
  | 1 =>
    let s1 := each 4 (fun s r => (s.orchardReset r).meshReset r) (s.clearPlaces (fun p => decide (p = .hub)))
    { s1 with rw := { s1.rw with nextSeq := [], targets := [], outstanding := [], holding := [] } }
  | 2 => each 8 pavReset s
  | 3 => each 16 dramReset s
  | 4 => each 128 fabricReset s
  | _ =>
    let s1 := each 16 dramReset (each 64 spadZero (each 272 cisReset (each 4 orchardReset s)))
    State.weakClear { s1 with chans := Table.mapAll (fun _ => {}) s1.chans (fun _ c => { c with launch := [], buffer := [], round := [] }) }
      (fun p => match p with | .launchBuffer .. | .retryBuffer _ => true | _ => false)

/-- A set ends with its signature; the next starts (R515, R518). -/
def setEnd (s : State) (sig : List Word) : State :=
  match s.bist.setsLeft with
  | [] => s
  | n :: rest =>
    let words := (List.range 4).map (fun k => sig.getD k 0)
    let s1 := s.setReset n
    let s2 := (List.range 4).foldl (fun (s : State) k => s.setReg (aBist n + 4 + 4 * k) (words.getD k 0)) s1
    let s3 := s2.setReg (aBist n) (resDone (s.reg (aBist n)) (decide (words ≠ Config.bistExpected n)))
    { s3 with bist := { s3.bist with
        setsLeft := rest, setNow := rest.headD n, setsRun := if n ∈ s.bist.setsRun then s.bist.setsRun else n :: s.bist.setsRun } }

/-! ### March (R519-R524) -/

/-- Units of a march kind. -/
def marchCount (kind : Nat) : Nat :=
  match kind with
  | 1 => 128 | 2 => 16 | 3 => 64 | 4 => 272 | 5 => 144 | 6 => 1 | 7 => 128 | _ => 0

/-- The units a memory select names. -/
def marchUnits (sel : Word) : List Nat :=
  if fld sel 15 0 = 0xFFFF then List.range (marchCount (fld sel 31 24)) else [fld sel 15 0]

/-- The domain of a unit of a kind. -/
def marchDomain (kind n : Nat) : Nat :=
  match kind with
  | 1 | 7 => terraceId n
  | 2 => ridgeId (n / 4)
  | 3 => pavilionId (n / 8)
  | 4 => if n < 144 then quadId (n / 4) else terraceId (n - 144)
  | 5 => quadId (n / 4)
  | _ => 0

/-- The quiet condition of the destroying form. -/
def marchQuiet (s : State) (kind n : Nat) : Bool :=
  match kind with
  | 2 => !s.orcEn (n / 4)
  | 3 => decide ((s.eng n).st = .stopped) && !s.traceEngine n
  | 4 => !s.cisEn n
  | 5 => !s.chEn n
  | 6 => !s.dspEn && s.cairns.all (fun e => e.2.free)
  | _ => true

/-- MARCH_RUN (R521). -/
def opMarchRun (s : State) (sel form : Word) : OpRes :=
  let kind := fld sel 31 24
  let idx := fld sel 15 0
  let units := marchUnits sel
  let bad := firstRefusal [
    (decide (marchCount kind = 0) || decide (fld sel 23 16 ≠ 0) || decide (1 < form.toNat) ||
      (if idx = 0xFFFF then decide (kind = 6) else decide (marchCount kind ≤ idx)), 0x02),
    (s.selfTest, 0x30),
    (units.any (fun n => !s.domainOn (marchDomain kind n)), 0x07),
    (units.any (fun n => s.fenced (marchDomain kind n)), 0x1C),
    (decide (form = 0) && !units.all (s.marchQuiet kind), 0x30),
    (decide (kind = 7) && units.any (fun t => (s.terr t).stagingShadow || (s.terr t).shadowOk || s.switchNear t), 0x30)]
  if bad ≠ 0 then opRefuse s bad
  else
    let s1 := s.setReg aMarch (resStart (s.reg aMarch))
    opDone { s1 with bist := { s1.bist with march := some (sel, form) } } []

/-- The contents of a marched unit after the destroying form: zeros with valid codes (R522). -/
def marchZero (s : State) (kind n : Nat) : State :=
  match kind with
  | 1 => s.bramLoad n []
  | 3 => s.spadZero n
  | 4 => (((s.setCis n {}).cutFeed n).setRb (aCis n + 0x10) 0 false).setRb (aCis n + 0x10) 1 false
  | 5 => (s.modChan n (fun c => { c with launch := [], buffer := [], round := [] })).weakClear (fun p => match p with
    | .launchBuffer d _ | .retryBuffer d => decide (d = n)
    | _ => false)
  | 6 =>
    let s1 := { s with regs := Table.keep s.regs (fun a _ => !decide (0xC10000 ≤ a ∧ a < 0xC80000)), cairns := [] }
    State.weakClear { s1 with dsp := { s1.dsp with threads := [], flows := [], levels := [], saves := [] } }
      (fun p => match p with | .threadEntry .. | .flowEntry .. | .cairnEntry .. => true | _ => false)
  | 7 => s.modTerr n (fun x => { x with shadow := [], shadowSrc := 15 })
  | _ => s

/-- One operation of a march element on a cell: read and expect, or write. -/
inductive MarchOp where
  | r (v : Bool)
  | w (v : Bool)
deriving DecidableEq, Repr

/-- March C−, element by element: every cell sees the same operations in every address order (R520). -/
def marchC : List MarchOp := [.w false, .r false, .w true, .r true, .w false, .r false, .w true, .r true, .w false, .r false]

/-- What a faulty cell holds after a write. -/
def cellWrite (f : CellFault) (old new : Bool) : Bool :=
  match f with
  | .stuck v => v
  | .noRise => old && new
  | .noFall => old || new

/-- A cell with a fault that holds a value reads otherwise than a march expects. -/
def marchCatches (f : CellFault) : Bool → List MarchOp → Bool
  | _, [] => false
  | b, .r v :: ops => (match f with | .stuck u => decide (u ≠ v) | _ => decide (b ≠ v)) || marchCatches f b ops
  | b, .w v :: ops => marchCatches f (cellWrite f b v) ops

/-- The code words of a unit of a march kind (R484, R204, R177, R299): block memories; Orchard cells, 32 words and a tag each;
scratchpads; Cistern lines, 4 words and a tag each; launch and retry buffers; thread, flow and Cairn entries; configuration
frames. Their order within the unit is not stated (DESIGN CHOICE, log entry 82). -/
def marchWords (kind n : Nat) : Nat :=
  match kind with
  | 1 => 32 * 1024
  | 2 => 12288 * 33
  | 3 => 32768
  | 4 => (if n < 144 then 512 else 256) * 5
  | 5 => 4096 + 8192
  | 6 => 8192 * 8 + 16384 * 2 + 4096 * 4
  | 7 => 4608 * 63
  | _ => 0

/-- A number takes its place in an ascending list, once. -/
def insertAsc (k : Nat) : List Nat → List Nat
  | [] => [k]
  | x :: xs => if k < x then k :: x :: xs else if k = x then x :: xs else x :: insertAsc k xs

/-- The failing words of a march, as R524 lays them out, by unit and code word: the words of marched units with a cell whose fault
March C− catches. -/
def marchFailing (sel : Word) (faults : List (Nat × Nat × CellFault)) : List Nat :=
  (faults.filter (fun f => decide (f.1 ∈ marchUnits sel) && decide (f.2.1 < marchWords (fld sel 31 24) f.1) &&
    marchCatches f.2.2 false marchC)).foldl (fun l f => insertAsc (f.1 * 2 ^ 22 + f.2.1) l) []

/-- The march ends with its signature (R520, R522, R524); `faults` gives the faulty cells by unit and code word. -/
def marchEnds (s : State) (faults : List (Nat × Nat × CellFault)) : State :=
  match s.bist.march with
  | none => s
  | some (sel, form) =>
    let kind := fld sel 31 24
    let fails := marchFailing sel faults
    let sig : List Word := [
      w32 (min (2 ^ 32 - 1) fails.length),
      (fails.head?.map w32).getD 0xFFFFFFFF, (fails.getLast?.map w32).getD 0xFFFFFFFF,
      at_ 24 kind ||| at_ 16 (fld form 7 0) ||| w32 (fld sel 15 0)]
    let s1 := if form = 0 then (marchUnits sel).foldl (fun (s : State) n => s.marchZero kind n) s else s
    let s2 := (List.range 4).foldl (fun (s : State) k => s.setReg (aMarch + 4 + 4 * k) (sig.getD k 0)) s1
    let s3 := s2.setReg aMarch (resDone (s.reg aMarch) (decide (fails ≠ [])))
    { s3 with bist := { s3.bist with march := none, marchRun := true } }

/-! ### Signatures (R525, R70) -/

/-- The reply for a finished run: DONE, or FAULT with the run's reason. -/
def signatureReply (s : State) (a : Nat) (reason : Byte) : OpRes :=
  let ws := (List.range 4).map (fun k => s.reg (a + 4 + 4 * k))
  if s.rb a 30 then opFault s reason ws else opDone s ws

/-- SIGNATURE_READ. -/
def opSignatureRead (s : State) (sel : Word) : OpRes :=
  let n := sel.toNat
  if n < 6 then
    if n ∈ s.bist.setsLeft then opRefuse s 0x30
    else if n ∈ s.bist.setsRun then s.signatureReply (aBist n) 0x41
    else opRefuse s 0x02
  else if n = 0x01000000 then
    if s.bist.march.isSome then opRefuse s 0x30
    else if s.bist.marchRun then s.signatureReply aMarch 0x42
    else opRefuse s 0x02
  else opRefuse s 0x02

/-! ### Capture (R526-R529) -/

/-- The terraces a capture takes: configured and powered. -/
def captureTargets (s : State) : List Nat :=
  (List.range 128).filter (fun t => (s.terr t).configured && s.domainOn (terraceId t))

/-- Nothing is captured. -/
def capEmpty (s : State) : Capture := { s.cap with
  done := false, snaps := [], begun := false, fixed := [], lines := [], repaired := [] }

/-- CAPTURE; an entry that reads uncorrectable ends it with a fault (R489). -/
def opCapture (s0 : State) (trigger cairn : Word) : OpRes :=
  let k := cairn.toNat
  let at1 := decide (trigger = 1)
  let early := firstRefusal [
    (decide (1 < trigger.toNat) || (at1 && decide (4095 < k)), 0x02),
    (s0.cap.armed || s0.cap.taking, 0x30)]
  let s := if at1 then s0.cairnMeet k else s0
  let c := s0.cairn k
  let bad := firstRefusal [
    (at1 && (decide (c.kind ≠ 8) || c.bound), 0x02),
    (at1 && (c.committed || reached s0.tb.fp c.pos), 0x21)]
  if early ≠ 0 then opRefuse s0 early
  else if at1 && s0.cairnBad k then opFault (s0.cairnLost k) 0x03 []
  else if bad ≠ 0 then opRefuse s0 bad
  else if at1 then
    let s1 := { s with cap := { s.capEmpty with armed := true, cairn := k, targets := s.captureTargets } }
    let s2 := s1.modCairn k (fun c => { c with bound := true })
    opDone (if s2.armDue k then s2.arm k else s2) []
  else
    opDone { s with cap := { s.capEmpty with
      taking := true, position := (s.tb.fp + stepsOfNs 2000) % fpModulus, targets := s.captureTargets } } []

/-- The last line that runs has captured: every line that does not run yields what it holds, and the capture is done; the trace
may stop. The row names lines that have captured at an edge (R527). -/
def captured (s : State) (edges : List (Nat × Nat)) (last : Bool) : State :=
  if last && s.cap.taking && reached s.tb.fp s.cap.position && edges.all (fun e => decide (e ∈ s.cap.lines)) &&
      s.cap.targets.all (fun t => (List.range 4).all (fun l => !s.lineRuns t l || decide ((t, l) ∈ s.cap.fixed))) then
    State.traceStop { s with cap := { s.takes s.cap (s.cap.open_ ·) with done := true, taking := false } } 2
  else s

/-- Word j of the capture window of a snapshot (R528). -/
def snapshotWord (x : Snapshot) (j : Nat) : Word :=
  if j < 2048 then x.ff.extractLsb' (32 * j) 32
  else
    let y := x.slices.getD ((j - 2048) / 16) FabricCell.Slice.zero
    match (j - 2048) % 16 with
    | 0 => y.a.zeroExtend 32
    | 1 => y.b.zeroExtend 32
    | 2 => y.d.zeroExtend 32
    | 3 => y.op1.pre.zeroExtend 32 ||| (y.op1.zsel.zeroExtend 32 <<< 2) ||| flag 4 y.op1.sub ||| flag 5 y.op1.sat
    | 4 => y.c.extractLsb' 0 32
    | 5 => y.c.extractLsb' 32 32
    | 6 => y.m.extractLsb' 0 32
    | 7 => (y.m.extractLsb' 32 19).zeroExtend 32
    | 8 => y.p.extractLsb' 0 32
    | 9 => y.p.extractLsb' 32 32
    | 10 => flag 0 y.ovf
    | _ => 0

/-- Word j of the capture window; 0 while DONE = 0 (R528). -/
def captureWord (s : State) (j : Nat) : Word :=
  if s.cap.done then snapshotWord (s.cap.snapOf (s.rf 0xE80304 6 0)) j else 0

/-- BLV_CAP_TINFO. -/
def captureInfo (s : State) : Word :=
  let t := s.rf 0xE80304 6 0
  if s.cap.done && decide (t ∈ s.cap.targets) then
    flag 31 true ||| flag 30 (decide (t ∈ s.cap.repaired)) ||| wordOfBits 4 (fun l => decide ((t, l) ∈ s.cap.lines)) <<< 24
  else 0

/-- BLV_CAP_STAT. -/
def captureStat (s : State) : Word :=
  flag 31 s.cap.done ||| flag 30 s.cap.armed ||| flag 29 (s.cap.taking && reached s.tb.fp s.cap.position) |||
  w32 (if s.cap.armed then s.cap.cairn else 0)

/-! ### Trace (R538-R541) -/

/-- The trace check on BLV_TRC_CTRL as written. -/
def traceCheck (s : State) (v : Word) : Byte × Nat :=
  let e := fld v 15 10
  firstFail [
    (decide ((s.eng e).st ≠ .stopped), 0x30, 0),
    (!s.domainOn (pavilionId (e / 8)), 0x07, 0),
    (decide (16383 < fld v 31 16), 0x02, 0)]

/-- A write to BLV_TRC_CTRL (R94, R538). -/
def traceCtrlWrite (s : State) (v : Word) : WRes :=
  let a := 0xE80000
  let old := s.reg a
  let w := v &&& 0xFFFFFFC1
  if bit v 0 ∧ !bit old 0 then
    let c := s.traceCheck v
    let s1 := s.recordCheck (a + 4) c.1 c.2
    if c.1 ≠ 0 then (s1, c.1)
    else ((State.setReg { s1 with trace := { run := true } } a w).traceMake 0 0 0 (fpSf s.tb.fp) (secondsWord s.tb.devTime), 0)
  else if bit v 0 ∧ w ≠ old then (s, 0x09)
  else if bit v 0 then (s, 0)
  else (State.setReg { s with trace := { s.trace with run := false } } a w, 0)

/-- Sources of a class. -/
def traceSource (cls src : Nat) : Bool :=
  match cls with
  | 0 | 2 => decide (src = 0)
  | 1 => decide (src < 64)
  | 3 => decide (src < 4096)
  | 4 => decide (src < 1024)
  | 5 => decide (src < 128)
  | 6 => decide (src < 144)
  | _ => false

/-- A packet is stored at NEXT (R538, R539, R541). -/
def traceStore (s : State) (p : TracePkt) : State :=
  let e := s.rf 0xE80000 15 10
  let n := s.trace.next
  let lost := Table.get (fun _ => 0) s.trace.lost p.cls
  let w0 := flag 31 true ||| at_ 28 p.cls ||| at_ 16 p.src ||| at_ 8 (p.kind % 256) ||| w32 (min 255 lost)
  let s1 := (s.spadWords e (16 * n) [w0, p.at_, p.d0, p.d1]).2
  let full := decide (n = 16383)
  let circ := s.rb 0xE80000 6
  let left := s.trace.left - 1
  let stop := (full && !circ) || (s.trace.triggered && decide (left = 0))
  { s1 with trace := { s1.trace with
      next := if full then (if circ then 0 else n) else n + 1
      wrapped := s1.trace.wrapped || (full && circ)
      left := left
      run := !stop
      lost := Table.set (fun _ => 0) s1.trace.lost p.cls 0 } }

/-- A packet reaches Belvedere: stored, or dropped when its class already queues 8 in this clock (R540). -/
def traceIn (s : State) (p : TracePkt) : State :=
  if !s.trace.run then s
  else
    let q := if s.trace.clock = s.now then s.trace.queued else []
    let k := Table.get (fun _ => 0) q p.cls
    let s1 := { s with trace := { s.trace with clock := s.now, queued := Table.set (fun _ => 0) q p.cls (k + 1) } }
    if 8 ≤ k then
      { s1 with trace := { s1.trace with
          lost := Table.set (fun _ => 0) s1.trace.lost p.cls (min 255 (Table.get (fun _ => 0) s1.trace.lost p.cls + 1)) } }
    else s1.traceStore p

/-- A packet reaches Belvedere: one of user logic straight from its terrace's trace port, any other from those on their way
(R539, R540). -/
def tracePacket (s : State) (cls src kind : Nat) (d0 d1 : Word) : State :=
  if cls = 5 then (if s.traceTakes 5 src then s.traceIn ⟨5, src, kind, fpFrPh s.tb.fp, d0, d1⟩ else s)
  else match s.trace.made.find? (fun p => decide ((p.cls, p.src, p.kind, p.d0, p.d1) = (cls, src, kind, d0, d1))) with
    | none => s
    | some p => State.traceIn { s with trace := { s.trace with made := s.trace.made.erase p } } p

/-- BLV_TRC_STAT. -/
def traceStat (s : State) : Word :=
  flag 31 s.trace.run ||| flag 30 s.trace.triggered ||| flag 29 s.trace.wrapped ||| w32 s.trace.next

/-! ### Boundary scan (R542) -/

/-- IDCODE: the major stepping over 0x91445CB. -/
def idcode : Word := at_ 28 (Config.devStep.toNat / 4096) ||| 0x91445CB

/-- The boundary-scan instruction register takes a code; one that acts only in BOOT with no base is BYPASS elsewhere. -/
def scanSelect (s : State) (code : Byte) (drive highz : Bool) (boundary : List Bool) : State :=
  if s.jtagActs then
    { s with jtag := { s.jtag with ir := code, driving := drive, highz := highz, boundary := boundary, dr := 0 } }
  else { s with jtag := { s.jtag with ir := code, driving := false, highz := false, dr := 0 } }

/-- The sampled levels: the pins, then the lanes' signal detectors. -/
def sampleLevels (s : State) : List Bool := (List.range 416).map s.pinLevel ++ (List.range 144).map (fun l => (s.lane l).sig)

end State

open State

/-! ### Events -/

/-- CHALLENGE_EXPIRY: an open challenge closes after 10 s (R513). -/
def execChallengeExpiry (dt : Nat) (s : State) : Out :=
  event dt s (fun s =>
    match s.gh.challenge with
    | some c => if c.closesAt ≤ s.now then { s with gh := { s.gh with challenge := none } } else s
    | none => s)

/-- LOCKOUT_END: the lockout is over 1 s after the wrong response (R513). -/
def execLockoutEnd (dt : Nat) (s : State) : Out :=
  event dt s (fun s =>
    match s.gh.lockoutEnd with
    | some t => if t ≤ s.now then { s with gh := { s.gh with lockoutEnd := none } } else s
    | none => s)

/-- BIST_SET_END (R518). -/
def execBistSetEnd (sig : List Word) (dt : Nat) (s : State) : Out := event dt s (fun s => s.setEnd sig)

/-- MARCH_END (R524). -/
def execMarchEnd (faults : List (Nat × Nat × CellFault)) (dt : Nat) (s : State) : Out := event dt s (fun s => s.marchEnds faults)

/-- CAPTURE_SNAPSHOT (R527). -/
def execCaptureSnapshot (edges : List (Nat × Nat)) (last : Bool) (dt : Nat) (s : State) : Out :=
  event dt s (fun s => s.captured edges last)

/-- TRACE_PACKET (R539-R541). -/
def execTracePacket (cls src kind : Nat) (d0 d1 : Word) (dt : Nat) (s : State) : Out :=
  unitEvent (traceSource cls src) dt s (fun s => s.tracePacket cls src kind d0 d1)

/-- GATEHOUSE_RESTART: the firmware restarts with the effect of RESET type 0 (R490). -/
def execGatehouseRestart (dt : Nat) (s : State) : Out :=
  event dt s (fun s =>
    if !s.gh.ready then s
    else
      let op := match s.gh.running with | some r => r.op | none => 0
      ((s.finish 0x03 0x30 []).commandPortReset).logEvent 0x49 0x0001 (w32 op) 0 0)

/-- EXTEST: pins and lanes are driven from the boundary register. -/
def execExtest (drive : List Bool) (s : State) : Out := .next (s.scanSelect 0x00 true false drive)

/-- IDCODE: the identification register. -/
def execIdcode (s : State) : Out :=
  .next { s with jtag := { s.jtag with ir := 0x01, driving := false, highz := false, dr := idcode } }

/-- SAMPLE/PRELOAD: the levels are sampled, the boundary register is loaded; nothing is driven. -/
def execSamplePreload (pins : List Bool) (s : State) : Out :=
  .next { s with jtag := { s.jtag with
    ir := 0x02, driving := false, highz := false, captured := s.sampleLevels, boundary := pins, dr := 0 } }

/-- HIGHZ: the outputs are high-impedance. -/
def execHighz (s : State) : Out := .next (s.scanSelect 0x06 false true s.jtag.boundary)

/-- CLAMP: the outputs are held from the boundary register. -/
def execClamp (s : State) : Out := .next (s.scanSelect 0x07 true false s.jtag.boundary)

/-- EXTEST_PULSE: as EXTEST, with a pulse on AC-coupled lanes. -/
def execExtestPulse (drive : List Bool) (s : State) : Out := .next (s.scanSelect 0x08 true false drive)

/-- EXTEST_TRAIN: as EXTEST, with a pulse train on AC-coupled lanes. -/
def execExtestTrain (drive : List Bool) (s : State) : Out := .next (s.scanSelect 0x09 true false drive)

/-- BYPASS, and every undefined code: the one-bit bypass register. A code of another instruction is no such event. -/
def execBypass (code : Byte) (s : State) : Out :=
  .next (if code ∈ [0x00, 0x01, 0x02, 0x06, 0x07, 0x08, 0x09] then s else { s with jtag := { s.jtag with ir := code, driving := false, highz := false, dr := 0 } })

end Sys2Proof.Machine
end

