-- ==== Sys2Proof/Machine/Monitor.lean ====
section
/-!
DEFINITION. The system monitor (R543-R553).
-/
namespace Sys2Proof.Machine

open Sys2Proof State

/-- The inputs of the monitor (R543). -/
def monInputs : List Nat := List.range 24 ++ (List.range 16).map (· + 32) ++ (List.range 7).map (· + 48)

def monValid (i : Nat) : Bool := decide (i < 24) || (decide (32 ≤ i) && decide (i ≤ 54))

/-- The ADC of an input (R543). -/
def monAdc (i : Nat) : Nat := if i < 12 ∨ (32 ≤ i ∧ i < 40) then 0 else 1

/-- MON_STAT. -/
def aMonStat : Nat := 0xF00008

namespace State

def monEnIn (s : State) (i : Nat) : Bool := s.rb (aMonCfg i) 31
def monAvg (s : State) (i : Nat) : Nat := s.rf (aMonCfg i) 30 28
def monConsec (s : State) (i : Nat) : Nat := s.rf (aMonCfg i) 27 24
def monPeriod (s : State) (i : Nat) : Nat := s.rf (aMonCfg i) 15 0
/-- The limits of an input, a write of this clock not yet in force (R550). -/
def monHi (s : State) (i : Nat) : Nat := fld (s.regBefore (aMonCfg i + 4)) 27 16
def monLo (s : State) (i : Nat) : Nat := fld (s.regBefore (aMonCfg i + 4)) 11 0
def adcBad (s : State) (a : Nat) : Bool := if a = 0 then s.mon.bad0 else s.mon.bad1

/-! ### Enable (R548) -/

/-- The inputs an ADC scans. -/
def monScans (s : State) (a : Nat) : List Nat :=
  monInputs.filter (fun i => decide (monAdc i = a) && s.monEnIn i && decide (s.monPeriod i ≠ 0))

/-- The load of an ADC exceeds 0.8: sum of 2^AVG x 0.5 / PERIOD_US, as a fraction. -/
def monOver (s : State) (a : Nat) : Bool :=
  let f := (s.monScans a).foldl (fun (nd : Nat × Nat) i =>
    (nd.1 * s.monPeriod i + 2 ^ s.monAvg i * nd.2, nd.2 * s.monPeriod i)) (0, 1)
  decide (8 * f.2 < 5 * f.1)

/-- The monitor check. -/
def monCheck (s : State) : Byte × Nat :=
  let off := fun (i : Nat) => 0x1000 + 0x20 * i
  let zero := monInputs.filter (fun i => s.monEnIn i && decide (s.monConsec i = 0))
  firstFail [
    (!zero.isEmpty, 0x02, off (zero.headD 0)),
    (s.monOver 0, 0x02, off ((s.monScans 0).headD 0)),
    (s.monOver 1, 0x02, off ((s.monScans 1).headD 0))]

/-- A write to MON_CTRL: the first rounds fall due at the enable; a disable abandons the rounds in progress. -/
def monCtrlWrite (s : State) (v : Word) : WRes :=
  let old := s.monEn
  if bit v 0 ∧ !old then
    let c := s.monCheck
    let s1 := s.recordCheck 0xF00004 c.1 c.2
    if c.1 ≠ 0 then (s1, c.1)
    else ((monInputs.foldl (fun (s : State) i => s.setMonIn i { s.monIn i with nextDue := s.now }) s1).setReg 0xF00000 1, 0)
  else if bit v 0 then (s, 0)
  else
    let s1 := { s with mon := { s.mon with taken := s.mon.slotEnd } }
    ((monInputs.foldl (fun (s : State) i => s.setMonIn i { s.monIn i with busy := false }) s1).setReg 0xF00000 0, 0)

/-! ### Rounds, samples, results (R546-R550) -/

/-- A conversion starts: VALID becomes 0 (R88). -/
def convStart (s : State) (i : Nat) : State := s.setReg (aMonRes i) (resStart (s.reg (aMonRes i)))

/-- A round of input i is due (R546). -/
def monDue (s : State) (i : Nat) : Bool :=
  s.mon.adcOn && s.monEn && s.monEnIn i && decide (s.monPeriod i ≠ 0) && decide ((s.monIn i).nextDue ≤ s.now)

/-- When the slots taken of an ADC end (R544). -/
def adcTaken (s : State) (a : Nat) : Nat := Table.get (fun _ => 0) s.mon.taken a

/-- n conversions take their slots of ADC a before what is left of its rounds (R544, R546, R547). -/
def slotsTaken (s : State) (a n : Nat) : State :=
  let later := fun (t : Nat) => if s.now < t then t + 500000 * n else t
  monInputs.foldl (fun (s : State) i =>
    let x := s.monIn i
    if decide (monAdc i = a) && x.busy && decide (s.now < x.since + 500000 * 2 ^ s.monAvg i) then
      s.setMonIn i { x with since := x.since + 500000 * n }
    else s) { s with mon := { s.mon with taken := Table.set (fun _ => 0) s.mon.taken a (later (s.adcTaken a)) } }

/-- A scan round falls due: it takes the slots of its ADC that come next, one a conversion, or is skipped while one is unfinished;
on one ADC the rounds that are due start in ascending input order (R544, R546). -/
def scanDue (s : State) (i : Nat) : State :=
  let x := s.monIn i
  if s.monDue i && monInputs.all (fun j => !(decide (j < i) && decide (monAdc j = monAdc i) && s.monDue j)) then
    let due := x.nextDue + s.monPeriod i * 1000000
    if x.busy then (s.setMonIn i { x with nextDue := due }).setRb aMonStat 30 true
    else
      let start := max s.now (s.adcTaken (monAdc i))
      let s1 := { s with mon := { s.mon with
        taken := Table.set (fun _ => 0) s.mon.taken (monAdc i) (start + 500000 * 2 ^ s.monAvg i) } }
      (s1.setMonIn i { x with nextDue := due, busy := true, since := start }).convStart i
  else s

/-- The end of the last SAMPLE slot of ADC a. -/
def slotEnd (s : State) (a : Nat) : Nat := Table.get (fun _ => 0) s.mon.slotEnd a

/-- A SAMPLE Cairn starts one conversion of input i on its firing edge, or in the slot after that of an earlier SAMPLE on its
ADC (R547). -/
def sampleStart (s : State) (i : Nat) : State :=
  let at_ := max s.now (s.slotEnd (monAdc i))
  let s0 := s.slotsTaken (monAdc i) 1
  let s1 := { s0 with mon := { s0.mon with
    slotEnd := Table.set (fun _ => 0) s.mon.slotEnd (monAdc i) (at_ + 500000)
    taken := Table.set (fun _ => 0) s0.mon.taken (monAdc i) (max (s0.adcTaken (monAdc i)) (at_ + 500000)) } }
  (s1.setMonIn i { s1.monIn i with samples := (s1.monIn i).samples ++ [at_] }).convStart i

/-- Device Time and Frame Position n timebase clocks ago. -/
def timeAgo (s : State) (n : Nat) : BitVec 96 × BitVec 64 :=
  if !s.tbOn then (0, 0)
  else
    let t := s.tb.devTime - n * s.tb.addend
    let p := (s.tb.fp * fpDen + s.tb.fpAcc + fpModulus * fpDen - n * fpInc s.tb.rate) / fpDen % fpModulus
    (timeForm t, fpForm p)

/-- The alarm after a result (R550). -/
def monAlarm (s : State) (i code : Nat) : State :=
  let x := s.monIn i
  let out := decide (s.monHi i < code) || decide (code < s.monLo i)
  if out then
    let n := x.outRun + 1
    let s1 := s.setMonIn i { x with outRun := n, alarm := x.alarm || decide (s.monConsec i ≤ n) }
    if s.monConsec i ≤ n ∧ !x.alarm then
      (s1.setRb (0xF0000C + 4 * (i / 32)) (i % 32) true).logEvent 0x70 monitorId (w32 i) 0 code
    else s1
  else
    let back := x.alarm && decide (s.monLo i + 8 ≤ code) && decide (code + 8 ≤ s.monHi i)
    let s1 := s.setMonIn i { x with outRun := 0, alarm := x.alarm && !back }
    if back then s1.logEvent 0x71 monitorId (w32 i) 0 code else s1

/-- A result of input i, whose acquisition ended n timebase clocks ago, is written and compared (R549, R550). -/
def monResult (s : State) (i : Nat) (sample : Bool) (code n : Nat) : State :=
  let a := aMonRes i
  let out := decide (s.monHi i < code) || decide (code < s.monLo i)
  let (t, p) := s.timeAgo n
  let w := fun (n k : Nat) => wordOf n k
  let ws : List Word := [
    flag 31 sample ||| flag 30 out ||| w32 code,
    w t.toNat 2, w t.toNat 1, w t.toNat 0, w p.toNat 1, w p.toNat 0]
  let s1 := (List.range 6).foldl (fun (s : State) k => s.setReg (a + 4 + 4 * k) (ws.getD k 0)) s
  (s1.setReg a (resDone (s.reg a) (s.adcBad (monAdc i)))).monAlarm i code

/-- The mean of a round's codes, halves rounded up. -/
def meanCode (codes : List Nat) : Nat :=
  let n := codes.length
  (2 * (codes.map (min 4095)).foldl (· + ·) 0 + n) / (2 * n)

/-- A conversion ends: a SAMPLE 500 ns after its acquisition started, with the stamp of the acquisition's end, 250 ns after
that start (R547); a round when its 2^AVG slots of 500 ns, those of its ADC that came next, have passed, with the stamp of its last conversion (R546, R549). -/
def convEnd (s : State) (i : Nat) (sample : Bool) (codes : List Nat) : State :=
  let x := s.monIn i
  if sample then
    match x.samples with
    | at_ :: rest =>
      if codes.length = 1 ∧ at_ + 500000 ≤ s.now then
        (s.setMonIn i { x with samples := rest }).monResult i true (min 4095 (codes.headD 0)) ((s.now - (at_ + 250000)) / 2000)
      else s
    | [] => s
  else if x.busy ∧ codes.length = 2 ^ s.monAvg i ∧ x.since + 500000 * 2 ^ s.monAvg i ≤ s.now then
    (s.setMonIn i { x with busy := false }).monResult i false (meanCode codes) 125
  else s

/-! ### Die sensors and references (R551, R552) -/

def sensor (s : State) (k : Nat) : Sensor := Table.get (fun _ => {}) s.mon.sensors k
def setSensor (s : State) (k : Nat) (v : Sensor) : State :=
  { s with mon := { s.mon with sensors := Table.set (fun _ => {}) s.mon.sensors k v } }

/-- One conversion of every die sensor: the runs above MON_TRIP and below MON_TRIP - 5 degrees, and THERM_N; the next is due
100 us after this one was, and each ADC has converted eight of them (R543, R551). -/
def dieSensors (s00 : State) (codes : List Nat) : State :=
  let s0 := (s00.slotsTaken 0 8).slotsTaken 1 8
  let s := { s0 with mon := { s0.mon with dieDue := s0.mon.dieDue + 10 ^ 8 } }
  let trip := s.rf 0xF00014 11 0
  let s1 := (List.range 16).foldl (fun (s : State) k =>
    let c := codes.getD k 0
    let x := s.sensor k
    s.setSensor k {
      hotRun := if trip ≤ c then min 8 (x.hotRun + 1) else 0,
      coolRun := if c + 80 < trip then min 8 (x.coolRun + 1) else 0 }) s
  match (List.range 16).find? (fun k => decide ((s1.sensor k).hotRun = 8)) with
  | some k =>
    if s.mon.trip then s1
    else ({ s1 with mon := { s1.mon with trip := true } } : State).logEvent 0x72 monitorId (w32 k) 0 (codes.getD k 0)
  | none =>
    if s.mon.trip ∧ (List.range 16).all (fun k => decide ((s1.sensor k).coolRun = 8)) then
      let k := (Config.freeWord s.freeCtr).toNat % 16
      (State.fresh { s1 with mon := { s1.mon with trip := false } }).logEvent 0x73 monitorId (w32 k) 0 (codes.getD k 0)
    else s1

/-- When the reference of an ADC is next converted. -/
def refDue (s : State) (adc : Nat) : Nat := Table.get (fun _ => 0) s.mon.refDue adc

/-- A reference conversion of an ADC; the next is due 10 ms after this one was (R552). -/
def refConv (s0 : State) (adc code : Nat) (good : Bool) : State :=
  let s := s0.slotsTaken adc 1
  let s1 := { s with mon := { s.mon with
    refDue := Table.set (fun _ => 0) s.mon.refDue adc (s.refDue adc + 10 ^ 10)
    bad0 := if adc = 0 then !good else s.mon.bad0, bad1 := if adc = 1 then !good else s.mon.bad1 } }
  if good then s1 else s1.logEvent 0x74 monitorId (w32 adc) 0 code

end State

open State

/-! ### Events -/

/-- SCAN_ROUND (R546). -/
def execScanRound (i dt : Nat) (s : State) : Out := unitEvent (monValid i) dt s (fun s => s.scanDue i)

/-- CONVERSION_RESULT (R549). -/
def execConversionResult (i : Nat) (sample : Bool) (codes : List Nat) (dt : Nat) (s : State) : Out :=
  unitEvent (monValid i) dt s (fun s => s.convEnd i sample codes)

/-- REFERENCE_CONVERSION: every 10 ms (R552). -/
def execReferenceConversion (adc code : Nat) (good : Bool) (dt : Nat) (s : State) : Out :=
  unitEvent (decide (adc < 2)) dt s (fun s =>
    if s.mon.adcOn ∧ s.refDue adc ≤ s.now then s.refConv adc code good else s)

/-- DIE_SENSOR_CONVERSION: every 100 us, codes of TS0 to TS15 (R551). -/
def execDieSensorConversion (codes : List Nat) (dt : Nat) (s : State) : Out :=
  event dt s (fun s =>
    if s.mon.adcOn ∧ codes.length = 16 ∧ s.mon.dieDue ≤ s.now then s.dieSensors codes else s)

end Sys2Proof.Machine
end

