-- ==== Sys2Proof/Machine/CairnFire.lean ====
section
/-!
DEFINITION. CAIRN_SET, CAIRN_CANCEL, the firing of Cairns, TIME_ADDEND and TIME_STEP (R103, R116, R117, R124-R137).
-/
namespace Sys2Proof.Machine

open Sys2Proof State

namespace State

/-! ### TIME_ADDEND, TIME_STEP -/

/-- TIME_ADDEND: within 2.0 ns and 500 ppm (R116). -/
def opTimeAddend (s : State) (hi lo : Word) : OpRes :=
  let a := hi.toNat * 2 ^ 32 + lo.toNat
  let d := if a < 2 ^ 41 then 2 ^ 41 - a else a - 2 ^ 41
  if !s.tbOn then opRefuse s 0x07
  else if 65535 < hi.toNat ∨ 2 ^ 41 < 2000 * d then opRefuse s 0x02
  else opDone { s with tb := { s.tb with addend := a } } []

/-- A Device Time in binary form as units of it, and moved by a number of units. -/
def formMoved (d : Int) (f : BitVec 96) : BitVec 96 :=
  let n : Nat := f.toNat / 2 ^ 48 * dtPerSec + f.toNat / 2 ^ 16 % 2 ^ 32 * dtPerNs + f.toNat % 2 ^ 16 * 2 ^ 24
  timeForm ((n : Int) + d).toNat

/-- Device Time steps by a number of units; the stamps latched in this clock carry the stepped value (R117). -/
def stepTime (s : State) (d : Int) : State :=
  let s1 := { s with tb := { s.tb with devTime := ((s.tb.devTime : Int) + d).toNat } }
  s.tick.stamped.foldl (fun (s : State) e =>
    let x := s.stampSrc e.1
    s.setStampSrc e.1 { x with queue := stampsAgain (formMoved d) e.2 x.queue }) s1

/-- TIME_STEP: a signed offset in sign-and-magnitude form (R117). -/
def opTimeStep (s : State) (w2 w1 w0 : Word) : OpRes :=
  let secs := fld w2 30 0 * 65536 + fld w1 31 16
  let ns := fld w1 15 0 * 65536 + fld w0 31 16
  let mag := secs * dtPerSec + ns * dtPerNs + fld w0 15 0 * 2 ^ 24
  if !s.tbOn then opRefuse s 0x07
  else if 1000000000 ≤ ns then opRefuse s 0x02
  else if bit w2 31 then
    if s.tb.devTime < mag then opRefuse s 0x02 else opDone (s.stepTime (-(mag : Int))) []
  else opDone (s.stepTime mag) []

/-! ### CAIRN_SET, CAIRN_CANCEL (R126, R128) -/

/-- The blocks an ENABLE Cairn may name (R125). -/
def enableOk (id : Nat) : Bool :=
  decide (0x1800 ≤ id ∧ id ≤ 0x188F) || decide (0x1C90 ≤ id ∧ id ≤ 0x1D0F) || decide (id = monitorId)

/-- ARG is in range for a kind, its unused bits 0 (R124). PLANE and CAPTURE carry none. -/
def argOk (kind a : Nat) : Bool :=
  match kind with
  | 1 =>
    decide (a % 256 ≤ 7) &&
    (if a / 65536 = 0xFF then decide (a / 256 % 256 ≤ 143) else decide (a / 256 % 256 = 0))
  | 3 => decide (a / 32768 ≤ 415) && decide (a % 8192 = 0)
  | 4 => decide (a / 65536 < 128) && decide (a % 65536 < 16)
  | 5 => decide (a < 256) && monValid a
  | 6 => decide (a < 8192)
  | 7 => decide (a / 65536 % 128 = 0) && enableOk (a % 65536)
  | _ => decide (a = 0)

/-- The refusals of CAIRN_SET for an entry in slot k, in the state that holds it there. A domain that is off counts as off, though
its fence is closed (R35, R126). -/
def cairnRefusal (s : State) (k : Nat) : Byte :=
  let c := s.cairn k
  let units := (s.targets k).map domainOf
  firstRefusal [
    (decide (c.kind = 0) || decide (8 < c.kind), 0x02),
    (decide (15999 < fld c.fp 31 16), 0x02),
    (!argOk c.kind c.arg, 0x02),
    (c.binds && decide (c.period ≠ 0), 0x02),
    (decide (c.period = 0) && decide (c.count ≠ 0), 0x02),
    (!reached c.pos (s.tb.fp + stepsOfNs 250000), 0x21),
    (decide (c.kind = 1) && ((s.launchAt c.arg).isEmpty || (s.launchAt c.arg).any (fun n => !s.chEn n)), 0x12),
    (units.any (fun d => decide (d ≠ 0) && s.domainOn d && s.fenced d), 0x1C),
    (units.any (fun d => decide (d ≠ 0) && !s.domainOn d), 0x07)]

/-- CAIRN_SET; an entry named and in use that reads uncorrectable ends it with a fault (R489). -/
def opCairnSet (s : State) (index sf fp act rep : Word) : OpRes :=
  let any := decide (index = 0xFFFFFFFF)
  let slot := if any then firstBelow 4096 (fun k => (s.cairn k).free) else some index.toNat
  if !s.tbOn then opRefuse s 0x07
  else match slot with
  | none => opRefuse s 0x31
  | some k =>
    if k ≤ 4095 ∧ !(s.cairn k).free then (if s.cairnBad k then opFault (s.cairnLost k) 0x03 [] else opRefuse s 0x31)
    else if 4095 < k then opRefuse s 0x02
    else
      let s1 := (s.setCairn k { sf := sf, fp := fp, act := act &&& 0xF8FFFFFF, rep := rep }).mendAll (cairnWords k)
      let r := s1.cairnRefusal k
      if r ≠ 0 then opRefuse s r
      else
        let c := s1.cairn k
        opDone (if !c.binds && s1.armDue k then s1.arm k else s1) [w32 k]

/-- CAIRN_CANCEL; an entry that reads uncorrectable ends it with a fault (R489). -/
def opCairnCancel (s : State) (index : Word) : OpRes :=
  let k := index.toNat
  if 4095 < k then opRefuse s 0x02
  else if s.cairnBad k then opFault (s.cairnLost k) 0x03 []
  else if (s.cairn k).free then opDone s []
  else if (s.cairn k).committed then opRefuse s 0x21
  else opDone (s.cairnDrop k) []

/-! ### Firing (R129-R134) -/

/-- How a Cairn's action ends at its targets. -/
inductive Fired where
  | miss (cause : Byte)
  | fired
  | partial_
deriving DecidableEq, Repr

/-- A target domain off or fenced (R133). -/
def targetsOut (s : State) (k : Nat) : Byte :=
  let ds := ((s.targets k).map domainOf).filter (fun d => decide (d ≠ 0))
  if ds.any (fun d => !s.domainOn d) then 0x07 else if ds.any s.fenced then 0x1C else 0

/-- LAUNCH (R133, R134, R200): each channel in service sends the head of the queue; one that is not in RUN sends nothing. -/
def fireLaunch (s : State) (arg : Nat) : Fired × State :=
  let cs := s.launchAt arg
  let single := decide (arg / 65536 % 256 = 0xFF)
  let q := arg % 256
  let retired := cs.filter (fun c => (s.chan c).retired)
  if cs.isEmpty || cs.any (fun c => !s.chEn c) then (.miss 0x12, s)
  else if single && !retired.isEmpty then (.miss 0x1D, s)
  else if cs.any (fun c => s.sendsLaunch c) then (.miss 0x30, s)
  else
    let s1 := cs.foldl (fun (s : State) c => if s.chRuns c then s.launchAtChannel c q else s) s
    (if retired.any (fun c => (s.chan c).replacedBy.isNone) then .partial_ else .fired, s1)

/-- PLANE (R477, R480): the switch, and the mode of a MODE_ENTER. -/
def firePlane (s : State) (k : Nat) : Fired × State :=
  match s.ovl.image with
  | none => (.miss 0x1E, s)
  | some i =>
    if !s.ovl.ready then (.miss 0x1E, s)
    else
      let m := if s.ovl.modeEnter then (Mode.ofCode s.ovl.id).getD s.mode else s.mode
      let s1 := s.planeSwitch i
      let s2 := State.modCairn { s1 with mode := m } k (fun c => { c with bound := false })
      (.fired, if m = .drain ∧ s.mode ≠ .drain then (List.range 144).foldl drainLane s2 else s2)

/-- PIN (R317), judged on the plane that the pin is about to work in (R131). -/
def firePin (s : State) (arg : Nat) : Fired × State :=
  let p := arg / 32768
  let x := s.pin p
  let w := s.pinNext p
  if !x.configured || !pinCairn w || !(s.terr (pinTerr w)).started then (.miss 0x02, s)
  else
    let f := fun (y : Pin) => match arg / 8192 % 4 with
      | 0 => { y with cairnVal := false, cairnOe := true }
      | 1 => { y with cairnVal := true, cairnOe := true }
      | 2 => { y with cairnOe := false }
      | _ => { y with cairnVal := !y.cairnVal }
    (.fired, s.modPin p f)

/-- STROBE: the strobe line is 1 for one clock of the line the image names for it (R129). -/
def fireStrobe (s : State) (arg : Nat) : State :=
  let t := arg / 65536
  let n := arg % 65536
  if s.lineRuns t (s.lineOf t (.strobe n)) then s.modUser t (fun u => { u with strobes := n :: u.strobes.filter (· ≠ n) }) else s

/-- ENABLE (R95, R125): the bit takes the value as by a write of its register. -/
def fireEnable (s : State) (arg : Nat) : Fired × State :=
  let v := decide (2 ^ 23 ≤ arg)
  let id := arg % 65536
  let r : WRes :=
    if id = monitorId then (if s.monEn = v then (s, 0) else s.monCtrlWrite (if v then 1 else 0))
    else if id < 0x1C00 then
      let c := id - 0x1800
      if s.chEn c = v then (s, 0) else s.chCtrlWrite c (putBit (s.reg (aCh c)) 0 v)
    else
      let i := id - 0x1C00
      if s.rb (aCis i) 0 = v then (s, 0) else s.cisCtrlWrite i (putBit (s.reg (aCis i)) 0 v)
  (if r.2 = 0 then .fired else .miss r.2, r.1)

/-- The action of Cairn k at its position. -/
def fireAct (s : State) (k : Nat) : Fired × State :=
  let c := s.cairn k
  let out := s.targetsOut k
  if c.binds && !c.bound then (.miss 0x02, s)
  else if !c.armedAll then (.miss 0x21, s)
  else if c.kind = 1 ∧ (s.fireLaunch c.arg).1 = .miss 0x12 then (.miss 0x12, s)
  else if out ≠ 0 then (.miss out, s)
  else match c.kind with
  | 1 => s.fireLaunch c.arg
  | 2 => s.firePlane k
  | 3 => s.firePin c.arg
  | 4 => (.fired, s.fireStrobe c.arg)
  | 5 => (.fired, s.sampleStart (c.arg % 256))
  | 6 =>
    let r := s.decidePost (c.arg % 8192) (w32 (0x10000000 + k))
    (if r.1 then .fired else .miss 0x33, r.2)
  | 7 => s.fireEnable c.arg
  | _ => (.fired, { s with cap := { s.cap with armed := false, cairn := 0, taking := true, position := c.pos } })

/-- Cairn k at its position: it fires or misses, with its record and counts; its slot changes in the next clock. -/
def cairnAt (s : State) (k : Nat) : State :=
  let c := s.cairn k
  match s.fireAct k with
  | (.miss cause, s1) => s1.cairnMiss k cause
  | (f, s1) =>
    let part := decide (f = .partial_)
    let r := recordOf k c true part (if part then 0x1D else 0)
    let s2 := (s1.addCnt 0x30080 1).traceMake 3 k 0x20 r.w0 r.w1
    let s3 := if part || c.report then s2.pushRecord r else s2
    s3.endsNext k none

/-! ### The order of one clock (R32, R131) -/

/-- Cairn k's position is reached, and it has neither fired nor missed there. -/
def cairnDue (s : State) (k : Nat) : Bool :=
  s.tbOn && !(s.cairn k).free && reached s.tb.fp (s.cairn k).pos && !s.endedNow k

/-- The position was reached before the present clock. -/
def cairnLate (s : State) (k : Nat) : Bool :=
  reached (((fpModulus + s.tb.fp) * fpDen + s.tb.fpAcc - fpInc s.tb.rate) / fpDen % fpModulus) (s.cairn k).pos

/-- Of two due Cairns, j acts before k: an earlier clock, a PLANE switch, the lower index. -/
def actsBefore (s : State) (j k : Nat) : Bool :=
  let plane := fun n => decide ((s.cairn n).kind = 2)
  if s.cairnLate j then !s.cairnLate k || (s.cairn j).pos ≠ (s.cairn k).pos && reached (s.cairn k).pos (s.cairn j).pos ||
    (s.cairn j).pos = (s.cairn k).pos && (plane j && !plane k || (plane j == plane k) && decide (j < k))
  else !s.cairnLate k && (plane j && !plane k || (plane j == plane k) && decide (j < k))

/-- Insert into a list in the order of action. -/
def inOrder (s : State) (k : Nat) : List Nat → List Nat
  | [] => [k]
  | j :: js => if s.actsBefore j k then j :: inOrder s k js else k :: j :: js

/-- The Cairns whose position is reached, in the order in which they act. -/
def duesInOrder (s : State) : List Nat :=
  (s.cairns.filter (fun e => s.cairnDue e.1)).foldl (fun l e => s.inOrder e.1 l) []

/-- The due Cairns that act before Cairn k. -/
def duesBefore (s : State) (k : Nat) : List Nat := s.duesInOrder.takeWhile (fun j => decide (j ≠ k))

/-- A due Cairn acts. -/
def fireIfDue (s : State) (k : Nat) : State :=
  if !s.cairnDue k then s
  else if s.cairnBad k then s.cairnLost k
  else (s.cairnMeet k).cairnAt k

/-- The register whose enable bit an ENABLE Cairn writes (R125). -/
def enableReg (arg : Nat) : Nat :=
  let id := arg % 65536
  if id = monitorId then 0xF00000 else if id < 0x1C00 then aCh (id - 0x1800) else aCis (id - 0x1C00)

/-- The action of Cairn k changes a field of the register at a: the enable that it writes, the channel settings of a switch (R125,
R477). -/
def changes (s : State) (k a : Nat) : Bool :=
  let c := s.cairn k
  match c.kind with
  | 2 => match s.ovl.image with
    | some i => c.bound && i.chans.any (fun n =>
        decide (n < 144) && (decide (a = aCh n + 0x800) || decide (aCh n + 0x100 ≤ a ∧ a < aCh n + 0x120)))
    | none => false
  | 7 => enableOk (c.arg % 65536) && decide (enableReg c.arg = a)
  | _ => false

/-- The Cairns due now at a register that a write meets, with those that act before them. -/
def firesFirst (s : State) (a : Nat) : List Nat :=
  if s.duesInOrder.any (fun k => s.changes k a) then s.duesInOrder else []

/-- A register write meets the Cairns that act at its register in the same clock: they act first (R32). -/
def fireEnables (s : State) (a : Nat) : State := (s.firesFirst a).foldl fireIfDue s

end State

open State

/-- CAIRN_FIRE: the position of Cairn k is reached; the due Cairns that come before it act first (R129, R131). -/
def execCairnFire (k dt : Nat) (s : State) : Out :=
  unitEvent (decide (k < 4096)) dt s (fun s =>
    if s.cairnDue k then ((s.duesBefore k).foldl fireIfDue s).fireIfDue k else s)

end Sys2Proof.Machine
end

