-- ==== Sys2Proof/Machine/RegRead.lean ====
section
/-!
DEFINITION. Reads of registers (R15, R75, R84-R90): what each word of the parameter space shows, latched groups and
reads that consume.
-/
namespace Sys2Proof.Machine

open Sys2Proof State

/-! ### Codes -/

/-- LN_STAT.STATE. -/
def Ladder.code : Ladder → Nat
  | .off => 0 | .announce => 1 | .agree => 2 | .switch => 3 | .train => 4 | .verify => 5 | .fallback => 6 | .run => 7
  | .hold => 8 | .loop => 9

/-- ENG_STAT.STATE (R344). -/
def EngState.code : EngState → Nat
  | .stopped => 0 | .run => 1 | .idle => 2 | .monitor => 3 | .fault => 4

/-- TH_STAT.STATE. -/
def ThState.code : ThState → Nat
  | .disabled => 0 | .idle => 1 | .ready => 2 | .flowWait => 3 | .staged => 4 | .running => 5 | .halted => 6 | .ending => 7

namespace State

/-! ### The Gatehouse's registers -/

/-- DEV_MODE (R97): SWITCH_PEND and NEXT from the bound or autonomous switch. -/
def modeWord (s : State) : Word :=
  let pend := s.ovl.bound && (s.ovl.modeEnter || s.ovl.auto)
  let next := if !pend then 0 else if s.ovl.auto then 4 else s.ovl.id
  flag 15 pend ||| at_ 8 next ||| w32 s.mode.code

/-- GH_PORT_STAT. -/
def portStat (s : State) : Word :=
  let g := s.gh
  at_ 24 g.lastStatus.toNat ||| at_ 16 g.lastReason.toNat ||| flag 15 g.running.isNone ||| flag 14 g.running.isSome |||
  flag 13 g.alert ||| flag 12 (decide (s.mode = .stop)) ||| flag 11 (s.rb 0x10000 11) |||
  flag 10 (decide (s.rf 0x10010 15 0 ≠ 0)) ||| at_ 8 g.auth ||| w32 g.badFrames

/-- GH_REPLY_INFO: the held reply, PENDING while a command runs. -/
def replyInfo (s : State) : Word :=
  match s.gh.running with
  | some r => at_ 24 r.op ||| at_ 16 1 ||| w32 r.hdr.tag.toNat
  | none => at_ 24 s.gh.held.opcode.toNat ||| at_ 16 s.gh.held.status.toNat ||| w32 s.gh.held.tag.toNat

/-- DRAM_TRAINED: every enabled DRAM channel is trained, and there is one. -/
def allTrained (s : State) : Bool :=
  (List.range 16).any s.drEn && (List.range 16).all (fun d => !s.drEn d || (s.dr d).trained)

/-- DEV_GSTAT. -/
def gstat (s : State) : Word :=
  flag 31 (decide (s.mode = .stop)) ||| flag 30 s.stopPend ||| flag 23 s.tb.lock ||| (s.reg 0x18 &&& 0x700000) |||
  flag 19 (s.rb 0x10000 11) ||| flag 18 s.boot.base.isSome ||| flag 17 s.boot.started ||| flag 16 s.allTrained

/-- OVL_STAT. -/
def ovlStat (s : State) : Word :=
  let o := s.ovl
  flag 31 o.busy ||| flag 30 o.ready ||| flag 29 o.bound ||| flag 28 o.auto ||| at_ 24 o.id ||| at_ 16 o.reason |||
  w32 (if o.bound ∧ !o.auto then o.cairn else 0)

/-- OVL_IMAGE_ID, OVL_SEQ and OVL_INFO of slot n. -/
def slotWord (s : State) (n k : Nat) : Word :=
  match s.slot n with
  | none => 0
  | some i =>
    if k = 0 then i.header.getD 4 0
    else if k = 1 then ((sectionData i.sections 6 0).getD []).getD 0 0
    else flag 31 true ||| flag 30 i.fromFlash ||| w32 (i.bodyLen % 2 ^ 23)

/-! ### Registers by place -/

def peekDevice (s : State) (o : Nat) : Word :=
  match o with
  | 0x04 => w32 Config.devStep.toNat
  | 0x08 => Config.serialLo
  | 0x0C => Config.serialHi
  | 0x10 => s.modeWord
  | 0x18 => s.gstat
  | 0x1C => Config.fwVersion
  | 0x20 => match s.boot.base with | some i => i.header.getD 4 0 | none => 0
  | 0x24 => w32 s.boot.ovlCount
  | 0x28 => w32 s.log.entries.length
  | _ => s.reg o

def peekGatehouse (s : State) (o : Nat) : Word :=
  if o = 0 then s.portStat
  else if o = 4 then s.replyInfo
  else if o = 0x14 then w32 (if s.rf 0x10010 15 0 = 0 then 0 else s.gh.wdog / 1000000000)
  else if o = 0x100 then s.ovlStat
  else if 0x120 ≤ o ∧ o < 0x1A0 ∧ o % 16 ≠ 12 then s.slotWord ((o - 0x120) / 16 + 1) (o % 16 / 4)
  else s.reg (0x10000 + o)

/-- BF_STAT and the other boot flash registers. -/
def peekFlash (s : State) (o : Nat) : Word :=
  let b := s.boot
  if o = 0 then
    flag 31 (b.booting || b.rawBusy || (match b.load with | some l => l.reading | none => false)) |||
    flag 30 (decide (b.bootsel = 1) || decide (b.bootsel = 2)) ||| flag 29 b.fallback |||
    flag 28 Config.signingHashes.isEmpty ||| at_ 24 b.priFail ||| at_ 20 b.fbFail ||| at_ 18 b.bootsel |||
    flag 17 (s.rb 0x18000 17) ||| flag 16 b.autostarted ||| w32 b.preloadIdx
  else s.reg (0x18000 + o)

/-- CK_STAT, CK_XAB_DIFF and the gate registers (R322, R324, R326, R336). -/
def peekClocks (s : State) (o : Nat) : Word :=
  if o = 0 then
    let n := Config.foscCount s.now
    flag 31 s.clk.xa.stable ||| flag 30 s.clk.xb.stable ||| flag 29 (decide (3000 ≤ n ∧ n ≤ 7000)) ||| flag 28 (Config.soscOk s.now)
  else if o = 0x14 then match s.clk.diff with | some d => satWord d | none => 0x80000000
  else if o = 0x100 then wordOfBits 5 (fun k => if k = 0 then s.gateOpen 0 else s.gateOpen (ridgeId (k - 1)))
  else if 0x104 ≤ o ∧ o ≤ 0x110 then wordOfBits 32 (fun k => s.gateOpen (terraceId ((o - 0x104) * 8 + k)))
  else if o = 0x114 then wordOfBits 8 (fun k => s.gateOpen (pavilionId k))
  else if o = 0x118 then wordOfBits 32 (fun k => s.gateOpen (quadId k))
  else if o = 0x11C then wordOfBits 4 (fun k => s.gateOpen (quadId (32 + k)))
  else if o = 0x120 then wordOfBits 32 (fun k => s.gateOpen (if k < 16 then dramId k else 0x2400 + (k - 16)))
  else s.reg (0x20000 + o)

/-- CK_PLL_STAT, and the system PLL's computed words (R328, R456). -/
def peekPll (s : State) (o : Nat) : Word :=
  let p := o / 0x100
  if o % 0x100 = 8 ∧ p < 16 then
    let x := s.pll p
    flag 31 x.lock ||| flag 30 x.frozen ||| flag 29 x.onAlt ||| w32 (min 0xFFFF x.losses)
  else if o = 0xF0C then (if s.clk.spllStarted then Config.spllFb (s.xFreq (s.pllRef 15)) else 0)
  else if o = 0xF10 then (if s.clk.spllStarted then Config.spllDiv (s.xFreq (s.pllRef 15)) else 0)
  else s.reg (0x21000 + o)

/-- The words of a 96-bit and a 64-bit value, most significant first. -/
def words96 (v : BitVec 96) : List Word := [wordOf v.toNat 2, wordOf v.toNat 1, wordOf v.toNat 0]
def words64 (v : BitVec 64) : List Word := [wordOf v.toNat 1, wordOf v.toNat 0]

/-- TB_STAT. -/
def tbStat (s : State) : Word :=
  let t := s.tb
  flag 15 (decide (t.loop = .holdover)) ||| flag 14 t.lock ||| flag 13 (decide (t.lastUsed = 1)) |||
  flag 12 t.inA.qualified ||| flag 11 t.inB.qualified ||| (s.reg 0x30008 &&& 0x780) ||| flag 6 s.tbOn

def peekTimebase (s : State) (o : Nat) : Word :=
  match o with
  | 0x08 => s.tbStat
  | 0x24 => w32 (s.tb.addend / 2 ^ 32)
  | 0x28 => w32 (s.tb.addend % 2 ^ 32)
  | 0x2C => satWord s.tb.rate
  | 0x30 => satWord s.tb.phaseErr
  | 0x60 =>
    at_ 16 (Table.count s.cairns (fun _ c => decide (c.armed ≠ []))) |||
      w32 (4096 - Table.count s.cairns (fun _ c => !c.free))
  | _ => s.reg (0x30000 + o)

/-- The Cairn table, four words a slot. -/
def peekCairns (s : State) (o : Nat) : Word :=
  let c := s.cairn (o / 16)
  match o % 16 / 4 with | 0 => c.sf | 1 => c.fp | 2 => c.act | _ => c.rep

def peekChannel (s : State) (c o : Nat) : Word :=
  let x := s.chan c
  let stored := s.reg (aCh c + o)
  if o = 8 then
    flag 31 x.retired ||| flag 30 x.scanOk ||| flag 29 x.sync ||| flag 28 (s.chRuns c) ||| flag 27 x.subst |||
    at_ 16 x.subFor ||| at_ 8 x.buffer.length
  else if o = 0xC then putFld stored 28 24 x.index
  else if o = 0x14 then
    putFld stored 3 0 (min 8 (x.retryTimes.filter (fun t => decide (s.now < t + 1000000000))).length)
  else if o = 0x18 then w32 (x.delay % 65536)
  else if 0x100 ≤ o ∧ o < 0x120 then putFld stored 12 8 (s.lq c ((o - 0x100) / 4)).length
  else if o = 0x808 then s.txLat c
  else if o = 0x80C then s.rxLat c
  else stored

/-- LQ_STAT, else the stored word. -/
def peekQuad (s : State) (q o : Nat) : Word :=
  if o = 0 then
    wordOfBits 4 (fun k => (s.lane (4 * q + k)).synth) <<< 8 |||
    (match s.scan q with | some x => flag 4 true ||| w32 (x.lane % 4) | none => 0)
  else s.reg (aQuad q + o)

def peekLane (s : State) (l o : Nat) : Word :=
  let x := s.lane l
  match o with
  | 0x04 =>
    at_ 28 x.st.code ||| at_ 24 x.step ||| flag 23 x.lock ||| flag 22 x.sig ||| flag 21 x.synth ||| flag 20 x.adapt |||
    at_ 18 x.loopKind
  | 0x08 => x.cap
  | 0x0C => x.own
  | 0x10 => flag 31 x.noPartner ||| flag 30 (s.rb (aLane l + 0x10) 30) ||| at_ 26 x.failedRung ||| w32 x.restarts
  | _ => s.reg (aLane l + o)

def peekCistern (s : State) (i o : Nat) : Word :=
  let stored := s.reg (aCis i + o)
  if o = 0 then (if i < 144 then putBit stored 0 (s.chEn i) else stored)
  else if o = 0xC then putBit stored 29 (s.cis i).dropping ||| w32 (s.cisVisible i)
  else if o = 0x40 then (s.cisHead i).1
  else if o = 0x10 then stored ||| (s.askedNow (aCis i + 0x10) &&& 3)
  else stored

/-- Free spill pages of a ridge (R239, R416). -/
def spillFree (s : State) (r : Nat) : Nat :=
  let base := s.rf (aOrc r + 0x20) 23 0
  let size := s.rf (aOrc r + 0x24) 23 0
  let used := (s.oridge r).spillUsed
  let gone := (List.range 4).flatMap (fun k =>
    ((s.dr (4 * r + k)).retired.map (fun x => 4 * x.page + k)).filter (fun p =>
      decide (base ≤ p) && decide (p < base + size) && decide (p ∉ used)))
  size - used.length - gone.length

/-- ORC_STAT. -/
def orcStat (s : State) (r : Nat) : Word :=
  let frees := s.frees []
  flag 31 (s.giver frees r).isNone ||| flag 30 (decide (s.orcFree r < s.rf (aOrc r + 0x2C) 15 0)) |||
  flag 29 (match s.orc.audits.head? with | some e => decide (e.1 = .device ∨ nodeRidge e.1 = r) | none => false) ||| flag 28 (s.ridgeNode r).untrust |||
  flag 27 (decide (r = 0) && s.orc.device.untrust) ||| flag 26 (s.rb (aOrc r + 8) 26) |||
  flag 25 (match s.giver frees r with | some x => decide (x ≠ r) | none => false)

/-- The four words of ORC_QINFO. -/
def queueInfo (s : State) (r : Nat) : List Word :=
  let x := s.queue (16384 * r + s.rf (aOrc r + 0x70) 13 0)
  [w32 x.onChip, w32 x.pages.length, w32 x.frames.length, w32 (min (2 ^ 32 - 1) ((s.now - x.lastOut) / 1000000))]

def peekOrchard (s : State) (r o : Nat) : Word :=
  let stored := s.reg (aOrc r + o)
  if o = 8 then s.orcStat r
  else if o = 0xC then w32 (s.orcFree r)
  else if o = 0x10 then w32 (s.ridgeNode r).count
  else if o = 0x1C then w32 (s.orcLent r % 65536) ||| at_ 16 (s.orcBorrowed r)
  else if o = 0x28 then w32 (s.spillFree r)
  else if o = 0x50 then wordOfBits 32 (fun c => (s.classNode r c).untrust)
  else if o = 0xC0 ∧ r = 0 then w32 s.orc.device.count
  else if 0x100 ≤ o ∧ o < 0x300 then
    let w := (o - 0x100) / 0x20
    let x := s.owin r w
    if o % 0x20 = 8 then flag 31 x.opened ||| at_ 16 x.cause.toNat ||| w32 (if x.opened then x.len - x.bytes.length else 0)
    else if o % 0x20 = 0x10 then
      let q := s.rf (aWin r w + 0xC) 15 0
      if queueRidge q = r ∧ s.dqReady q (.window r w) then (s.dqWord q 4).1 else 0
    else stored
  else if 0x400 ≤ o ∧ o < 0x500 ∧ o % 8 = 0 then w32 (s.classNode r ((o - 0x400) / 8)).count
  else if 0x10000 ≤ o ∧ o < 0x30000 ∧ o % 8 = 4 then
    let x := s.queue (16384 * r + (o - 0x10000) / 8)
    flag 31 x.untrust ||| flag 30 x.fault ||| flag 29 x.xoff ||| flag 28 (!x.pages.isEmpty) ||| w32 x.node
  else stored

/-- The routers, fences and statistics of ridge r's gateway range. -/
def peekGateway (s : State) (r o : Nat) : Word :=
  if o = 8 then wordOfBits 16 (fun m => (s.router (16 * r + m)).dead)
  else if o = 0x10 then wordOfBits 32 (fun k => decide (s.fence (terraceId (32 * r + k)) ≠ .opened))
  else if o = 0x14 then
    wordOfBits 32 (fun k =>
      if k < 2 then decide (s.fence (pavilionId (2 * r + k)) ≠ .opened)
      else if k < 11 then decide (s.fence (quadId (9 * r + (k - 2))) ≠ .opened)
      else decide (k = 31) && decide (s.fence (ridgeId r) ≠ .opened))
  else s.reg (aGw r + o)

/-- RT_STAT: the ports of a router that hold a closed fence. -/
def peekRouter (s : State) (w o : Nat) : Word :=
  if o = 8 then
    wordOfBits 8 (fun p =>
      let port := w / 16 * 0x80 + w % 16 * 8 + p
      let d := portDomain port
      (decide (d / 0x400 ≠ 1) && decide (s.fence d ≠ .opened)) ||
        (isGatewayPort port && decide (s.fence (ridgeId (w / 16)) ≠ .opened)))
  else s.reg (aRtr w + o)

def peekTerrace (s : State) (t o : Nat) : Word :=
  let x := s.terr t
  let stored := s.reg (aTerr t + o)
  if o = 0 then
    flag 31 x.configured ||| flag 30 x.started ||| flag 29 x.plane ||| flag 28 x.shadowOk |||
    wordOfBits 4 (s.lineRuns t) <<< 24 ||| flag 23 (x.anyHeld s.now) |||
    flag 22 ((List.range 4).any (fun k => decide (s.reg (aTerr t + 0x20 + 4 * k) ≠ 0))) ||| flag 21 (s.winLogic t) |||
    w32 (x.lastBay % 512)
  else if o = 8 then
    at_ 16 x.switches ||| flag 9 (s.switchNear t) ||| flag 8 x.stagingShadow ||| at_ 4 x.shadowSrc ||| w32 x.activeSrc
  else if o = 0x10 then putBit stored 29 (!x.lost.isEmpty)
  else stored

def peekBank (s : State) (b o : Nat) : Word :=
  let x := s.bank b
  if o = 0 then flag 31 x.ok ||| flag 30 (s.rb (aBank b) 30) ||| at_ 27 x.meas ||| at_ 24 x.decl
  else if o = 8 then w32 x.src0 ||| at_ 8 x.src1
  else if o = 0x10 then wordOfBits 32 (fun k => s.pinLevel (32 * b + k))
  else if o = 0x14 then wordOfBits 32 (fun k => (s.pinDrive (32 * b + k)).isSome)
  else if 0x100 ≤ o ∧ o < 0x180 then s.pinWord (32 * b + (o - 0x100) / 4)
  else s.reg (aBank b + o)

/-- ENG_STAT. -/
def engStatWord (s : State) (e : Nat) : Word :=
  let x := s.eng e
  let remote := s.postedOpen e || (match x.wait with | none | some .fence => false | _ => true)
  at_ 29 x.st.code ||| flag 28 x.bank ||| flag 27 x.stagedReady ||| flag 26 x.handler ||| flag 25 x.reservation.isSome |||
  flag 24 remote ||| flag 13 x.tvalid ||| w32 (if x.tvalid then x.thread else 0)

def peekEngine (s : State) (e o : Nat) : Word :=
  match o with
  | 0x08 => s.engStatWord e
  | 0x0C => w32 (s.eng e).ctx.pc
  | 0x34 => w32 ((s.eng e).wdog / (1000 * dtPerNs) % 65536)
  | 0x44 => w32 (s.eng e).stalls
  | 0x48 => w32 (s.eng e).conflicts
  | _ => s.reg (aEng e + o)

/-- TH_STAT. -/
def thStat (s : State) (t : Nat) : Word :=
  let x := s.thread t
  at_ 29 x.st.code ||| flag 28 x.saved ||| flag 27 x.ctxLost ||| flag 26 x.failed ||| at_ 16 x.engine ||| at_ 8 x.pend

/-- The second word of a flow. -/
def flowWord (s : State) (f : Nat) : Word :=
  let x := s.flow f
  flag 31 x.holder.isSome ||| at_ 16 x.waiting.length ||| w32 (x.holder.getD 0)

def peekDispatcher (s : State) (o : Nat) : Word :=
  if o = 0xC then
    flag 31 (!s.dsp.intake.isEmpty || !s.dsp.held.isEmpty) ||| w32 ((List.range 32).foldl (fun n l => n + (s.level l).length) 0 % 16384)
  else if 0x100 ≤ o ∧ o < 0x180 then w32 (s.level ((o - 0x100) / 4)).length
  else if 0x10000 ≤ o ∧ o < 0x50000 ∧ o % 32 = 0x14 then s.thStat ((o - 0x10000) / 32)
  else if 0x50000 ≤ o ∧ o < 0x70000 ∧ o % 8 = 4 then s.flowWord ((o - 0x50000) / 8)
  else s.reg (0xC00000 + o)

def peekPavilion (s : State) (p o : Nat) : Word :=
  if o = 4 then
    wordOfBits 8 (fun k => s.engOpen (8 * p + k)) ||| wordOfBits 8 (fun k => (s.eng (8 * p + k)).stagedReady) <<< 8
  else if o = 0x10 then
    flag 0 (s.domainOn (pavilionId p)) ||| flag 1 (s.fenced (pavilionId p)) ||| flag 2 (s.gateOpen (pavilionId p))
  else s.reg (aPav p + o)

def peekDram (s : State) (d o : Nat) : Word :=
  let x := s.dr d
  if o = 8 then
    flag 31 x.trained ||| flag 30 x.hot ||| flag 29 x.selfRef ||| flag 28 x.initDone ||| flag 27 x.training |||
    (s.reg (aDram d + 8) &&& 0x6000000) ||| w32 x.retired.length
  else if 0x1000 ≤ o ∧ o < 0x2000 then
    match x.retired[(o - 0x1000) / 4]? with
    | some r => flag 31 true ||| flag 30 r.pending ||| w32 r.page
    | none => 0
  else if x.training ∧ isHelper o then Config.trainingValue (aDram d + o) s.now &&& (specAt (aDram d + o)).rw
  else s.reg (aDram d + o)

def peekKeys (s : State) (o : Nat) : Word :=
  if o = 8 ∨ o = 0xC then wordOfBits 32 (fun k => s.keyLoaded ((o - 8) * 8 + k))
  else if o = 0x10 ∨ o = 0x14 then wordOfBits 32 (fun k => s.keyInUse ((o - 0x10) * 8 + k))
  else if 0x100 ≤ o ∧ o < 0x200 then (s.keySlot ((o - 0x100) / 4)).kcv
  else s.reg (0x700000 + o)

def peekReliability (s : State) (o : Nat) : Word :=
  if o = 0 then
    flag 31 (decide (1024 ≤ s.log.entries.length + 32)) ||| flag 30 (s.rb 0xD00000 30) |||
    at_ 16 s.log.entries.length ||| w32 s.log.lost
  else if o = 4 then w32 s.log.newest
  else if o = 8 then w32 s.logOldest
  else if 0x20 ≤ o ∧ o < 0x30 then w32 ((s.oridge ((o - 0x20) / 4)).retiredCells % 65536)
  else s.reg (0xD00000 + o)

/-- BIST and march results read 0 while their run is in progress (R90). -/
def peekBist (s : State) (o : Nat) : Word :=
  if o = 0 then
    flag 31 (!s.bist.setsLeft.isEmpty) ||| flag 30 s.bist.march.isSome ||| at_ 24 (s.bist.mask % 64) |||
    w32 (if s.bist.setsLeft.isEmpty then 0 else s.bist.setNow)
  else if o = 8 then (if s.bist.march.isSome then Config.marchProgress s.now else 0)
  else if 0x100 ≤ o ∧ o < 0x1C0 ∧ o % 0x20 ≠ 0 ∧ (o - 0x100) / 0x20 ∈ s.bist.setsLeft then 0
  else if 0x204 ≤ o ∧ o < 0x214 ∧ s.bist.march.isSome then 0
  else s.reg (0xE00000 + o)

def peekBelvedere (s : State) (o : Nat) : Word :=
  if o = 8 then s.traceStat
  else if o = 0x108 ∨ o = 0x10C then
    -- a halt that waits for its engine's access (R532)
    wordOfBits 32 (fun k => (s.eng ((o - 0x108) * 8 + k)).dbg.haltPending && s.attached ((o - 0x108) * 8 + k))
  else if o = 0x120 ∨ o = 0x124 then wordOfBits 32 (fun k => decide ((s.eng ((o - 0x120) * 8 + k)).st = .monitor))
  else if o = 0x208 then s.eregRead
  else if o = 0x20C then s.epcRead
  else if o = 0x210 then w32 (s.eng s.esel).dbg.evtCause ||| at_ 4 (s.eng s.esel).dbg.evtK
  else if 0x220 ≤ o ∧ o < 0x230 then Table.get (fun _ => 0) (s.eng s.esel).dbg.bkpt ((o - 0x220) / 4)
  else if 0x230 ≤ o ∧ o < 0x238 then Table.get (fun _ => 0) (s.eng s.esel).dbg.watch ((o - 0x230) / 4)
  else if o = 0x300 then s.captureStat
  else if o = 0x308 then s.captureInfo
  else if 0x4000 ≤ o ∧ o < 0x6C00 then s.captureWord ((o - 0x4000) / 4)
  else s.reg (0xE80000 + o)

def peekMonitor (s : State) (o : Nat) : Word :=
  if o = 8 then flag 31 s.mon.trip ||| flag 30 (s.rb 0xF00008 30) ||| flag 29 s.mon.bad1 ||| flag 28 s.mon.bad0
  else if o = 0x40000 then
    let restoring := s.terraces.any (fun e => e.2.restoring)
    let running := match s.gh.running with | some r => decide (r.op = 0x58) | none => false
    flag 31 (running || restoring || (s.pwr.op.isSome && !s.pwr.opGate)) ||| flag 30 restoring ||| flag 29 (s.rb 0xF40000 29) ||| flag 28 s.pwr.fenceHeld |||
    w32 s.pwr.opDomain
  else if 0x40010 ≤ o ∧ o < 0x40020 then wordOfBits 32 (fun k => s.domainOn (terraceId ((o - 0x40010) * 8 + k)))
  else if o = 0x40020 then
    wordOfBits 12 (fun k => if k < 8 then s.domainOn (pavilionId k) else s.domainOn (ridgeId (k - 8)))
  else if o = 0x40024 then wordOfBits 32 (fun k => s.domainOn (quadId k))
  else if o = 0x40028 then wordOfBits 4 (fun k => s.domainOn (quadId (32 + k)))
  else s.reg (0xF00000 + o)

/-- A word of an engine's scratchpad. -/
def spadWord (s : State) (e o : Nat) : Word := w32 (s.spadRead e o 4)

/-! ### Latched groups (R86) -/

/-- The index of a stamp source in a place: stamp pins 0-63, channels 64-207 (R120). -/
def stampAt (p : Place) (o : Nat) : Option (Nat × Nat) :=
  match p with
  | .timebase => if 0x1000 ≤ o ∧ o < 0x1800 ∧ o % 0x20 < 0x18 then some ((o - 0x1000) / 0x20, o % 0x20 / 4) else none
  | .channel c => if 0x810 ≤ o ∧ o < 0x828 then some (64 + c, (o - 0x810) / 4) else none
  | _ => none

/-- The statistics of the port that RW_STAT_SEL of a range names (R275). -/
def statWords (s : State) (base : Nat) : List Word :=
  let port := s.rf (base + 0x20) 9 0
  if portBase port = base then
    let x := s.stats port
    [w32 x.requests, w32 x.flits, w32 x.completed, w32 x.latencySum,
     w32 (x.latencySum / 2 ^ 32 % 65536) ||| at_ 16 x.latencyMax, w32 x.resent, w32 x.errors, w32 (s.now / 800)]
  else (List.range 8).map (Config.strangePort port)

/-- The words of the latched group that a word belongs to, with its place in the group. -/
def latched (s : State) (p : Place) (o : Nat) : Option (Nat × List Word) :=
  let at' := fun (first n : Nat) (ws : List Word) =>
    if first ≤ o ∧ o < first + 4 * n then some ((o - first) / 4, ws) else none
  match stampAt p o with
  | some (src, k) => some (k, s.stampWords src)
  | none =>
    match p with
    | .timebase =>
      (at' 0x10 5 (words96 (timeForm s.tb.devTime) ++ words64 (fpForm s.tb.fp))).or
        ((at' 0x38 4 (w32 s.tb.sfNum :: words96 (timeForm s.tb.sfTime))).or
          (at' 0x70 3 (match s.events with | r :: _ => [r.w0, r.w1, r.w2] | [] => [0, 0, 0])))
    | .channel c =>
      (at' 0x884 2 [s.reg (aCh c + 0x884), s.reg (aCh c + 0x888)]).or
        (at' 0x88C 2 [s.reg (aCh c + 0x88C), s.reg (aCh c + 0x890)])
    | .lane l =>
      at' 0x1C 4 (if s.rf (aLane l + 0x14) 1 0 = 2 then [s.reg (aLane l + 0x18) &&& 0x3FF, 0, 0, 0] else (s.lane l).eq)
    | .orchard r => at' 0x74 4 (s.queueInfo r)
    | .hub => at' 0x40 8 (s.statWords 0x500000)
    | .gateway r => at' 0x40 8 (s.statWords (aGw r))
    | .keys => at' 0x208 2 [s.reg (aStop + 8), s.reg (aStop + 12)]
    | .belvedere => at' 0x310 2 [fpSf s.cap.position, fpFrPh s.cap.position]
    | _ => none
/-! ### Peek and read -/

/-- What a register shows, by place, without any side effect (R85); latched groups apart. -/
def peekPlace (s : State) (p : Place) (o : Nat) : Word :=
  match p with
  | .device => s.peekDevice o
  | .gatehouse => s.peekGatehouse o
  | .flash => s.peekFlash o
  | .clocks => s.peekClocks o
  | .plls => s.peekPll o
  | .timebase => s.peekTimebase o
  | .cairns => s.peekCairns o
  | .channel c => s.peekChannel c o
  | .quad q => s.peekQuad q o
  | .lane l => s.peekLane l o
  | .txPreset l => s.reg (aTxPre l 0 + o)
  | .cistern i => if 0x44 ≤ o ∧ o < 0x64 then Table.get (fun _ => 0) s.latch ((aCis i + o) / 4) else s.peekCistern i o
  | .orchard r => s.peekOrchard r o
  | .bankGroup _ => 0
  | .hub => s.reg (0x500000 + o)
  | .gateway r => s.peekGateway r o
  | .router w => s.peekRouter w o
  | .dram d => s.peekDram d o
  | .keys => s.peekKeys o
  | .engine e => s.peekEngine e o
  | .dispatcher => s.peekDispatcher o
  | .pavilion v => s.peekPavilion v o
  | .reliability => s.peekReliability o
  | .bist => s.peekBist o
  | .belvedere => s.peekBelvedere o
  | .monitor => s.peekMonitor o
  | .bank b => s.peekBank b o
  | .window _ => 0
  | .terrace t => s.peekTerrace t o
  | .scratchpad e => s.spadWord e o

/-- The word of a register without a latch: for the rest of a clock in which a Cairn's action has come before a write of the
register, the Cairn's (R32). -/
def wordNow (s : State) (p : Place) (o a : Nat) : Word :=
  match p with
  | .channel _ | .cistern _ | .monitor => (Table.get (fun _ => none) s.tick.shown a).getD (s.peekPlace p o)
  | _ => s.peekPlace p o

/-- A write meets the Cairns that act at its register in the same clock: they act first, and their word shows for that clock
(R32). -/
def meetCairns (s : State) (a : Nat) : State :=
  if s.firesFirst a = [] then s
  else
    let s1 := s.fireEnables a
    match placeOf a with
    | none => s1
    | some (p, o) => s1.setTick { s1.tick with shown := Table.set (fun _ => none) s1.tick.shown a (some (s1.peekPlace p o)) }

/-- A peek of an address: the first word of a latched group is the value now, its other words the last copy. -/
def peek (s : State) (a : Nat) : Word :=
  match placeOf a with
  | none => 0
  | some (p, o) =>
    match s.latched p o with
    | some (0, ws) => ws.getD 0 0
    | some _ => Table.get (fun _ => 0) s.latch (a / 4)
    | none => s.wordNow p o a

/-- What a consuming read does beyond its word, once a group is latched (R120, R137). -/
def consume (s : State) (p : Place) (o : Nat) : State :=
  match stampAt p o with
  | some (src, _) => s.popStamp src
  | none => if p = .timebase ∧ o = 0x70 then { s with events := s.events.drop 1 } else s

/-- What an RC read of a stored word shows: the word from before this clock's events (R84). -/
def rcShown (s : State) (a : Nat) : Option Word := (Table.get (fun _ => none) s.tick.counted a).map (fun x => x.1)

/-- An RC word is cleared by its read; the events of the same clock survive it (R84). -/
def clearRead (s : State) (p : Place) (o a : Nat) : State :=
  let m := (specIn p o).rc
  if m = 0 then s
  else match p with
  | .engine e =>
    if o = 0x44 then s.modEng e (fun x => { x with stalls := 0 })
    else if o = 0x48 then s.modEng e (fun x => { x with conflicts := 0 })
    else rcClear s m a
  | _ => rcClear s m a
where
  rcClear (s : State) (m : Word) (a : Nat) : State :=
    let left := match Table.get (fun _ => none) s.tick.counted a with | some x => satAdd 0 x.2 | none => 0
    (s.setReg a ((s.reg a &&& ~~~m) ||| (left &&& m))).setTick (s.tick.dropCount a)

/-- The word a read without latch shows: an RC word as before this clock's events (R84). -/
def shown (s : State) (p : Place) (o a : Nat) : Word :=
  if (specIn p o).rc = 0 then s.wordNow p o a else (s.rcShown a).getD (s.wordNow p o a)

/-- A read of a word with its side effects (R84, R86): the word, and the state after it. -/
def readWord (s : State) (a : Nat) : Word × State :=
  match placeOf a with
  | none => (0, s)
  | some (p, o) =>
    match s.latched p o with
    | some (0, ws) =>
      (ws.getD 0 0, ({ s with latch := Table.setList (fun _ => 0) s.latch (a / 4) ws } : State).consume p o)
    | some _ => (Table.get (fun _ => 0) s.latch (a / 4), s)
    | none =>
      match p, o with
      | .cistern i, 0x40 => s.cisRead i
      | .orchard r, _ =>
        if 0x100 ≤ o ∧ o < 0x300 ∧ o % 0x20 = 0x10 then s.dqTagRead r ((o - 0x100) / 0x20)
        else (s.shown p o a, (s.readMeet p o).clearRead p o a)
      | _, _ => (s.shown p o a, (s.readMeet p o).clearRead p o a)

end State

end Sys2Proof.Machine
end

