-- ==== Sys2Proof/Machine/RegWrite.lean ====
section
/-!
DEFINITION. Writes of registers (R15, R81, R82, R91-R94): the access codes, check-guarded fields, enables and every
register whose write does something.
-/
namespace Sys2Proof.Machine

open Sys2Proof State

namespace State

/-! ### What may be reached (R77, R339, R271, R36) -/

/-- An access that needs the clock of a gated unit (R339): windows, Cistern windows, scratchpads, bank groups. -/
def gatedAccess (s : State) (p : Place) (o : Nat) : Bool :=
  match p with
  | .window t => !s.gateOpen (terraceId t)
  | .cistern i =>
    (decide (o = 0x20) || decide (o = 0x24) || decide (o = 0x40)) &&
      !s.gateOpen (if i < 144 then quadId (i / 4) else terraceId (i - 144))
  | .scratchpad e => !s.gateOpen (pavilionId (e / 8))
  | .bankGroup n => !s.gateOpen (0x2400 + n)
  | _ => false

/-- Why an access from a port to a place ends in an error at the network or the unit; 0x00 when it does not. -/
def accessError (s : State) (port : Nat) (p : Place) (o : Nat) : Byte :=
  firstRefusal [
    (decide (s.reachFrom port (placeDomain p) ≠ 0), s.reachFrom port (placeDomain p)),
    (s.pathCut port (portOf p), 0x07),
    (s.bistHolds p, 0x30),
    (s.gatedAccess p o, 0x07)]

/-! ### Peeks by Belvedere (R530, R531) -/

/-- The result block of a peek. -/
def aPeek : Nat := 0xE80048

/-- The result of a peek: DATA and REASON; GO and CONSUME clear. -/
def peekDone (s : State) (data : Word) (reason : Byte) : State :=
  (((s.setReg (aPeek + 4) (if reason = 0 then data else 0)).setReg (aPeek + 8) (w32 reason.toNat)).setReg aPeek
    (resDone (s.reg aPeek) (decide (reason ≠ 0)))).setReg 0xE80044 0

/-- GO: a peek, or with CONSUME a read with its side effects, of BLV_PEEK_ADDR. -/
def peekGo (s : State) (consuming : Bool) : State :=
  let a := (s.reg 0xE80040).toNat
  let s0 := s.setReg aPeek (resStart (s.reg aPeek))
  match placeOf a with
  | none => s0.peekDone 0 0x08
  | some (p, o) =>
    let e := s0.accessError 0x205 p o
    let s0 := s0.hubSent 0x205 (portOf p)
    if e ≠ 0 then (s0.hubErr 0x205).peekDone 0 e
    else if s0.storedBad p o then ((s0.storedBadLog p o 0x205 false).hubErr 0x205).peekDone 0 0x03
    else match p with
      | .window t =>
        if s0.winReady t then
          s0.winAsk t { addr := a, write := false, peek := !consuming, data := 0, reply := .peek }
        else (s0.hubErr 0x205).peekDone 0 0x07
      | _ =>
        if consuming then
          let (w, s1) := s0.readWord a
          s1.peekDone w 0
        else s0.peekDone (s0.peek a) 0

/-- A write to BLV_PEEK_CTRL: its bits set; GO starts the access that CONSUME then names, and written while it is 1 does nothing
(R15, R530). -/
def peekCtrlWrite (s : State) (v : Word) : State :=
  if bit v 0 ∧ s.rb 0xE80044 0 then s
  else
    let s1 := s.setReg 0xE80044 (s.reg 0xE80044 ||| (v &&& 3))
    if bit v 0 then s1.peekGo (s1.rb 0xE80044 1) else s1

/-! ### Raw flash commands (R462) -/

/-- A write to BF_CMD starts the command. -/
def rawCommand (s : State) (v : Word) : WRes :=
  if bit (s.peekFlash 0) 31 then (s, 0x30)
  else if 256 < fld v 24 16 then (s, 0x02)
  else
    let s1 := s.setReg 0x18040 (resStart (s.reg 0x18040))
    ({ s1 with boot := { s1.boot with
        rawBusy := true, rawRead := if bit v 25 then none else some (fld v 24 16) } }, 0)

/-! ### Families whose enables have no chapter function of their own -/

/-- CK_XA_CFG and CK_XB_CFG (R324, R91, R94). -/
def xtalWrite (s : State) (x : Nat) (v : Word) : WRes :=
  let old := s.reg (aX x)
  let w := (old &&& ~~~(0xF00FFFFF : Word)) ||| (v &&& 0xF00FFFFF)
  let named := fun p => (s.pll p).running && (decide (s.pllRef p = x) || decide (s.pllAlt p = x))
  if bit v 31 ∧ !bit old 31 then
    let c := xtalCheck x v
    let s1 := s.recordCheck (aCk + 4) c.1 c.2
    if c.1 ≠ 0 then (s1, c.1) else ((s1.setReg (aX x) w).setXtal x {}, 0)
  else if bit v 31 then (if (old ^^^ w) &&& 0x700FFFFF ≠ 0 then (s, 0x09) else (s.setReg (aX x) w, 0))
  else if bit old 31 then
    if (List.range 16).any named then (s, 0x18)
    else
      let s1 := (s.setReg (aX x) w).setXtal x {}
      ({ s1 with clk := { s1.clk with diff := none } }, 0)
  else (s.setReg (aX x) w, 0)

/-- CK_PLL_CTRL (R330, R331, R456, R94). A write that leaves EN at 1 does not return the PLL to REF, as the example after R342
says (DEDUCED, log entry 78). -/
def pllCtrlWrite (s : State) (p : Nat) (v0 : Word) : WRes :=
  let a := aPll p
  let old := s.reg a
  let v := if p = 15 ∧ bit old 0 then v0 ||| 1 else v0
  let w := (old &&& ~~~(0x3D : Word)) ||| (v &&& 0x3D)
  if bit v 0 ∧ !bit old 0 then
    let c := s.pllCheck p v
    let s1 := s.recordCheck (a + 4) c.1 c.2
    if c.1 ≠ 0 then (s1, c.1)
    else if p = 15 then ((s1.setReg a w).spllStart (fld v 3 2), 0)
    else ((s1.setReg a w).pllStart p, 0)
  else if bit v 0 then
    if (old ^^^ w) &&& 0x3C ≠ 0 then (s, 0x09) else (s.setReg a w, 0)
  else if bit old 0 then
    if s.pllUsed p then (s, 0x18)
    else ((s.setReg a w).modPll p (fun x => { x with running := false, lock := false, frozen := false, onAlt := false }), 0)
  else (s.setReg a w, 0)

/-- GH_WDOG_PERIOD (R62): a written 1 to 9 sets 10; 0 is ignored. -/
def wdogWrite (s : State) (v : Word) : State :=
  let n := fld v 15 0
  if n = 0 then s
  else
    let ms := max 10 n
    let s1 := s.setReg 0x10010 (w32 ms)
    { s1 with gh := { s1.gh with wdog := ms * 1000000000 } }

/-- DSP_CTRL (R393). -/
def dspCtrlWrite (s : State) (v : Word) : WRes :=
  let old := s.reg 0xC00000
  let w := v &&& 0xFF01
  if bit v 0 ∧ !bit old 0 then ((s.recordCheck 0xC00004 0 0).setReg 0xC00000 w, 0)
  else if !bit v 0 ∧ bit old 0 then
    if s.noEng then ((s.setReg 0xC00000 w).dispatcherOff, 0) else (s, 0x30)
  else (s.setReg 0xC00000 w, 0)

/-- TH_CFG (R376, R377, R94). -/
def thCfgWrite (s : State) (t : Nat) (v : Word) : WRes :=
  let a := aThread t
  let old := s.reg a
  let w := v &&& 0xFFFF3FFF
  if bit v 31 ∧ !bit old 31 then
    let c := s.threadCheck t v
    let s1 := (s.recordCheck 0xC00004 c.1 c.2).setReg 0xC00008 (w32 t)
    if c.1 ≠ 0 then (s1, c.1)
    else ((s1.setReg a w).modThread t (fun x => { x with st := if x.st = .ending then .ending else .idle }), 0)
  else if bit v 31 then (if (old ^^^ w) &&& 0x7FFF3FFF ≠ 0 then (s, 0x09) else (s, 0))
  else if bit old 31 ∨ (s.thread t).st = .halted then ((s.threadOff t).setReg a w, 0)
  else (s.setReg a w, 0)

/-- An enabled thread names the flow (R390). -/
def flowNamed (s : State) (f : Nat) : Bool :=
  s.regs.any (fun e =>
    decide (0xC10000 ≤ e.1) && decide (e.1 < 0xC50000) && decide (e.1 % 32 = 0) && bit e.2 31 && bit e.2 24 &&
      decide (fld e.2 13 0 = f))

/-- PV_DSP_CFG (R391): engines whose ACCEPT bit is cleared lose their staged thread, unless it is pinned. -/
def acceptWrite (s : State) (p : Nat) (v : Word) : State :=
  let gone := s.reg (aPav p) &&& ~~~v
  (List.range 8).foldl (fun (s : State) k => if bit gone k then s.unstageUnbound (8 * p + k) else s)
    (s.setReg (aPav p) (v &&& 0xFF))

/-! ### The write of a word -/

/-- The value a write leaves by the access codes (R81); `fresh` are the bits that hardware sets in the same clock, which a
W1C write does not clear (R82). -/
def codeWrite (sp : RegSpec) (fresh old v : Word) : Word :=
  (old &&& ~~~sp.rw &&& ~~~(sp.w1c &&& v &&& ~~~fresh)) ||| (v &&& sp.rw) ||| (sp.w1s &&& v)

/-- The block that a check-guarded field of another register belongs to is enabled (R94). -/
def guardOn (s : State) (p : Place) (o : Nat) : Bool :=
  match p with
  | .channel c => s.chEn c
  | .lane l => s.chEn l
  | .cistern i => s.cisEn i
  | .orchard r => s.orcEn r
  | .plls => s.rb (aPll (o / 0x100)) 0
  | .dispatcher => if 0x10000 ≤ o ∧ o < 0x50000 then s.thEn ((o - 0x10000) / 32) else false
  | .dram d => s.drEn d
  | .monitor => s.monEn
  | _ => false

/-- A write with no behaviour of its own: the access codes and the guard (R81, R94). -/
def plainWrite (s : State) (p : Place) (o a : Nat) (v : Word) : WRes :=
  let sp := specIn p o
  let old := s.reg a
  let w := codeWrite sp (s.setNow a) old v
  if (old ^^^ w) &&& sp.guard ≠ 0 ∧ s.guardOn p o then (s, 0x09) else (s.setReg a w, 0)

/-- A plain write that a field value refuses with 0x02. -/
def rangeWrite (s : State) (p : Place) (o a : Nat) (v : Word) (bad : Bool) : WRes :=
  if bad then (s, 0x02) else s.plainWrite p o a v

def writeLane (s : State) (l o a : Nat) (v : Word) : WRes :=
  if o = 0x34 ∨ o = 0x38 then
    let s1 := (s.setReg a v).setRb (aLane l + 0x3C) 31 false
    (s1.modLane l (fun x => { x with alignStart := s.now }), 0)
  else if o = 0x2C then
    let (s1, r) := s.plainWrite (.lane l) o a v
    (if s1.reg a = s.reg a then s1 else s1.modLane l (fun x => { x with
      chkFill := 0
      gen := if fld (s.reg a) 1 0 ≠ fld (s1.reg a) 1 0 ∨ (!bit (s.reg a) 2 && bit (s1.reg a) 2) then 0x7FFFFFFF else x.gen }), r)
  else s.plainWrite (.lane l) o a v

/-- LN_TXPRE (R152). -/
def txPreBad (v : Word) : Bool :=
  bit v 15 || bit v 9 || decide (63 < fld v 21 16 + fld v 15 10 + fld v 9 4 + fld v 3 0)

def writeCistern (s : State) (i o a : Nat) (v : Word) : WRes :=
  match o with
  | 0x00 => s.cisCtrlWrite i v
  | 0x10 => ((s.cisCmdWrite i v).feedSettle i, 0)
  | 0x20 => s.cisWrData i v
  | 0x24 => s.cisWrEnd i v
  | _ => s.plainWrite (.cistern i) o a v

def writeOrchard (s : State) (r o a : Nat) (v : Word) : WRes :=
  if o = 0 then s.orcCtrlWrite r v
  else if 0x100 ≤ o ∧ o < 0x300 then
    let w := (o - 0x100) / 0x20
    if o % 0x20 = 0 then s.eqHdrWrite r w v
    else if o % 0x20 = 4 then s.eqDataWrite r w v
    else s.plainWrite (.orchard r) o a v
  else if 0x800 ≤ o ∧ o < 0x1000 then
    if s.profileUsed r ((o - 0x800) / 0x20) then (s, 0x09) else s.plainWrite (.orchard r) o a v
  else if 0x10000 ≤ o ∧ o < 0x30000 ∧ o % 8 = 0 then s.queueCfgWrite (16384 * r + (o - 0x10000) / 8) v
  else s.plainWrite (.orchard r) o a v

/-- RW_CFG and RW_STAT_CTRL of a gateway range. -/
def writeGateway (s : State) (p : Place) (base o a : Nat) (v : Word) : WRes :=
  if o = 0 then s.rangeWrite p o a v (decide (fld v 7 0 = 0))
  else if o = 0x24 then
    let port := s.rf (base + 0x20) 9 0
    (if bit v 0 ∧ portBase port = base then s.clearStats port else s, 0)
  else s.plainWrite p o a v

def writeEngine (s : State) (e o a : Nat) (v : Word) : WRes :=
  match o with
  | 0x28 => (s.raiseIrq e (v &&& 0xFFFF), 0)
  | 0x30 => ((s.setReg a (v &&& 0xFFFF)).reloadWdog e, 0)
  | _ => s.plainWrite (.engine e) o a v

def writeDispatcher (s : State) (o a : Nat) (v : Word) : WRes :=
  if o = 0 then s.dspCtrlWrite v
  else if o = 0x10 then s.dspPost v
  else if o = 0x14 then (if bit v 0 then s.snapshot (bit v 1) else s.setReg a (s.reg a ||| (v &&& 2)), 0)
  else if 0x10000 ≤ o ∧ o < 0x50000 ∧ o % 32 = 0 then s.thCfgWrite ((o - 0x10000) / 32) v
  else if 0x50000 ≤ o ∧ o < 0x70000 ∧ o % 8 = 0 then
    if s.flowNamed ((o - 0x50000) / 8) then (s, 0x09) else s.plainWrite .dispatcher o a v
  else s.plainWrite .dispatcher o a v

/-- A write to a DRAM channel's range; the training helpers are open in BOOT, STAGING and DRAIN (R410). -/
def writeDram (s : State) (d o a : Nat) (v : Word) : WRes :=
  match o with
  | 0x000 => s.drCtrlWrite d v
  | 0x040 => if bit v 0 then s.drStart d else (s, 0)
  | 0x140 =>
    let (ws, s1) := s.freeWords 16
    if bit v 0 then s1.drCompare d v ws else if s.drMode then s.plainWrite (.dram d) o a v else (s, 0x05)
  | 0x404 => s.drWinCmd d v .clean
  | _ => if isHelper o ∧ !s.drMode then (s, 0x05) else s.plainWrite (.dram d) o a v

def writeBelvedere (s : State) (o a : Nat) (v : Word) : WRes :=
  if o = 0 then s.traceCtrlWrite v
  else if o = 0x44 then (s.peekCtrlWrite v, 0)
  else if o = 0x100 ∨ o = 0x104 then (s.attachWrite ((o - 0x100) / 4) v, 0)
  else if o = 0x108 ∨ o = 0x10C then (s.sessionEach ((o - 0x108) / 4) v haltEngine, 0)
  else if o = 0x110 ∨ o = 0x114 then (s.sessionEach ((o - 0x110) / 4) v stepEngine, 0)
  else if o = 0x118 ∨ o = 0x11C then (s.sessionEach ((o - 0x118) / 4) v resumeEngine, 0)
  else if o = 0x208 then s.eregWrite v
  else if o = 0x20C then s.epcWrite v
  else if 0x220 ≤ o ∧ o < 0x230 then
    (s.modEng s.esel (fun x => { x with dbg := { x.dbg with
      bkpt := Table.set (fun _ => 0) x.dbg.bkpt ((o - 0x220) / 4) (v &&& 0x8003FFFC) } }), 0)
  else if 0x230 ≤ o ∧ o < 0x238 then
    (s.modEng s.esel (fun x => { x with dbg := { x.dbg with
      watch := Table.set (fun _ => 0) x.dbg.watch ((o - 0x230) / 4) (v &&& 0xE003FFF8) } }), 0)
  else s.plainWrite .belvedere o a v

/-- A write of a word of a scratchpad: four bytes, refused at a half of an uncorrectable word (R488). -/
def writeSpad (s : State) (e o : Nat) (v : Word) : WRes :=
  if s.spadBadAt e o then (s, 0x03) else (s.spadPut e o v, 0)

/-- What a write of a word of the parameter space does (R81, R91-R94), but for the fabric windows. -/
def writeBody (s : State) (a : Nat) (v : Word) : WRes :=
  match placeOf a with
  | none => (s, 0x08)
  | some (p, o) =>
    match p with
    | .gatehouse => if o = 0x10 then (s.wdogWrite v, 0) else s.plainWrite p o a v
    | .flash => if o = 0x20 then s.rawCommand v else s.plainWrite p o a v
    | .clocks =>
      if o = 8 ∨ o = 0xC then s.xtalWrite ((o - 8) / 4) v
      else if o = 0x10 then s.rangeWrite p o a v (decide (fld v 15 0 < 10) || decide (2000 < fld v 15 0))
      else s.plainWrite p o a v
    | .plls =>
      if o % 0x100 = 0 ∧ o < 0x1000 then s.pllCtrlWrite (o / 0x100) v
      else if o % 0x100 = 0x14 ∧ o < 0x1000 ∧ (s.pll (o / 0x100)).running then (s.sscHold (o / 0x100)).plainWrite p o a v
      else s.plainWrite p o a v
    | .timebase => if o = 0 then s.tbCtrlWrite v else s.plainWrite p o a v
    | .channel c =>
      if o = 0 then s.chCtrlWrite c v
      else if 0xC00 ≤ o ∧ o < 0xE00 ∧ o % 0x40 = 0 then s.lqWinWrite c ((o - 0xC00) / 0x40) v
      else s.plainWrite p o a v
    | .lane l => s.writeLane l o a v
    | .txPreset _ => s.rangeWrite p o a v (decide (o < 0x2C) && txPreBad v)
    | .cistern i => s.writeCistern i o a v
    | .orchard r => s.writeOrchard r o a v
    | .hub => s.writeGateway p 0x500000 o a v
    | .gateway r => s.writeGateway p (aGw r) o a v
    | .dram d => s.writeDram d o a v
    | .keys =>
      if o = 0x200 then (if bit v 31 then s.setReg a 0 else s, 0) else s.plainWrite p o a v
    | .engine e => s.writeEngine e o a v
    | .dispatcher => s.writeDispatcher o a v
    | .pavilion n => if o = 0 then (s.acceptWrite n v, 0) else s.plainWrite p o a v
    | .reliability =>
      if o = 0xC then s.logInject v
      else if o = 0x100 then s.rangeWrite p o a v (decide (fld v 23 16 = 0))
      else s.plainWrite p o a v
    | .belvedere => s.writeBelvedere o a v
    | .monitor => if o = 0 then s.monCtrlWrite v else s.plainWrite p o a v
    | .terrace _ =>
      if o = 0x10 then s.rangeWrite p o a v (decide (fld v 23 16 = 0))
      else if o = 0x40 then s.rangeWrite p o a v (decide (fld v 15 0 = 0))
      else s.plainWrite p o a v
    | .scratchpad e => s.writeSpad e o v
    | .window _ => (s, 0x07)
    | _ => s.plainWrite p o a v

/-- A write of a word of the parameter space; a register it changes and the requests it makes are noted for the clock
(R82, R98, R550). -/
def writeWord (s : State) (a : Nat) (v : Word) : WRes :=
  let r := (match placeOf a with | some (p, o) => s.writeMeet p o | none => s).writeBody a v
  let asks := (specAt a).w1s &&& v
  if r.2 ≠ 0 ∨ (r.1.reg a = s.reg a ∧ asks = 0) then r
  else (r.1.setTick (r.1.tick.noteWrite a (s.reg a) asks), 0)

/-- The value a MODIFY writes (R66): bits of W1C, W1S and WO fields outside the mask are written as 0. -/
def modifyWord (sp : RegSpec) (old mask value : Word) : Word :=
  ((old &&& ~~~mask) &&& ~~~(sp.w1c ||| sp.w1s)) ||| (value &&& mask)

end State

end Sys2Proof.Machine
end

