-- ==== Sys2Proof/Machine/Access.lean ====
section
/-!
DEFINITION. Accesses to the parameter space: the PARAM_ opcodes of the host (R26, R66, R67, R74-R81, R489), requests
that user logic of a fabric window answers (R305-R307), and the register-level rows.
-/
namespace Sys2Proof.Machine

open Sys2Proof State

/-! ### Checks of the PARAM_ opcodes -/

/-- The auth level a PARAM_ opcode needs at a place (R79). -/
def needAuth (p : Place) (write : Bool) : Nat :=
  match p with
  | .belvedere => if write then 3 else 2
  | .device | .gatehouse | .channel _ | .quad _ | .lane _ | .txPreset _ | .cistern _ | .orchard _ | .bankGroup _
  | .engine _ | .dispatcher | .pavilion _ | .window _ | .cairns => 0
  | _ => if write then 1 else 0

/-- The addresses a PARAM_ opcode touches, by its parameter words; a count outside 1 to 4,096 touches none past the first. -/
def paramAddrs (op : Nat) (ws : List Word) : List Nat :=
  let a := (ws.getD 0 0).toNat
  let n :=
    if op = 0x13 then (let c := (ws.getD 1 0).toNat; if 1 ≤ c ∧ c ≤ 4096 then c else 1)
    else if op = 0x14 then ws.length - 1 else 1
  (List.range n).map (fun k => a + 4 * k)

/-- The clock and boot flash ranges, which a flash boot keeps to itself (R455). -/
def flashWrites (p : Place) : Bool := decide (p = .flash) || decide (p = .clocks) || decide (p = .plls)

/-- A PARAM_ opcode writes. -/
def paramWrites (op : Nat) : Bool := decide (op = 0x11) || decide (op = 0x12) || decide (op = 0x14)

/-- Step 9 for a PARAM_ opcode: every address in the space and owned by the target (R74, R26). -/
def paramTarget (target : Nat) (addrs : List Nat) : Byte :=
  if addrs.all (fun a => match placeOf a with
    | none => false
    | some (p, _) => decide (target = 0) || decide (ownerOf p = some target)) then 0 else 0x08

/-- Step 10: the level each address needs (R79). -/
def paramAuthOk (level : Nat) (write : Bool) (addrs : List Nat) : Bool :=
  addrs.all (fun a => match placeOf a with | none => true | some (p, _) => decide (needAuth p write ≤ level))

namespace State

/-- Step 12, before the first access: the read-only range (R80), domains off or fenced (R77), units under test (R517), the
ranges a flash boot writes (R455). -/
def paramCheck (s : State) (write : Bool) (addrs : List Nat) : Byte :=
  let places := addrs.filterMap (fun a => (placeOf a).map (fun x => x.1))
  let reaches := places.map (fun p => s.reach (placeDomain p))
  firstRefusal [
    (write && places.any (fun p => decide (p = .cairns)), 0x09),
    (reaches.any (fun r => decide (r ≠ 0)), (reaches.find? (fun r => decide (r ≠ 0))).getD 0),
    (places.any s.bistHolds, 0x30),
    (write && s.boot.booting && places.any flashWrites, 0x30)]

/-! ### The host's accesses -/

/-- One access of the host to a window: asked, or why not. -/
def hostWindow (s : State) (t a : Nat) (write peek : Bool) (data : Word) (k : HostAccess) : Byte × State :=
  if s.winReady t then (0, s.winAsk t { addr := a, write := write, peek := peek, data := data, reply := .host k })
  else (0x07, s)

/-- Words read in a block: the rest of it from an address, after those already got (R67, R489). -/
def hostRead : Nat → Nat → List Word → State → OpRes
  | 0, _, got, s => opDone s got
  | n + 1, a, got, s =>
    match placeOf a with
    | none => opFault s 0x08 got
    | some (p, o) =>
      let e := s.accessError 0x200 p o
      let s := s.hubSent 0x200 (portOf p)
      if e ≠ 0 then opFault (s.hubErr 0x200) e got
      else if s.storedBad p o then opFault ((s.storedBadLog p o 0x200 true).hubErr 0x200) 0x03 (got ++ [s.peek a])
      else match p with
        | .window t =>
          let (r, s1) := s.hostWindow t a false false 0 (.readBlock a n got)
          if r = 0 then (s1, .wait) else opFault (s.hubErr 0x200) r got
        | _ =>
          let (w, s1) := s.readWord a
          hostRead n (a + 4) (got ++ [w]) s1

/-- A write of a word is a DSP_POST write that waits in its port (R380). -/
def dspHolds (s : State) (a : Nat) (v : Word) : Bool := decide (a = 0xC00010) && s.postHolds v

/-- The write waits behind the posts before it, for the one who made it. -/
def dspHold (s : State) (v : Word) (r : WinReply) : State :=
  { s with dsp := { s.dsp with held := s.dsp.held ++
      [({ addr := 0xC00010, write := true, peek := false, data := v, reply := r } : WinRequest)] } }

/-- Words written in a block: the rest of it from an address, after the count written (R67, R93). -/
def hostWrite : List Word → Nat → Nat → State → OpRes
  | [], _, _, s => opDone s []
  | v :: vs, a, done, s =>
    match placeOf a with
    | none => opFault s 0x08 [w32 done]
    | some (p, o) =>
      let e := s.accessError 0x200 p o
      let s := s.hubSent 0x200 (portOf p)
      if e ≠ 0 then opFault (s.hubErr 0x200) e [w32 done]
      else match p with
        | .window t =>
          let (r, s1) := s.hostWindow t a true false v (.writeBlock a vs done)
          if r = 0 then (s1, .wait) else opFault (s.hubErr 0x200) r [w32 done]
        | _ =>
          if s.dspHolds a v then (s.dspHold v (.host (.writeBlock a vs done)), .wait) else
          let (s1, r) := (s.meetCairns a).writeWord a v
          if r = 0x03 then opFault ((s1.storedBadLog p o 0x200 false).hubErr 0x200) r [w32 done]
          else if r ≠ 0 then opFault (s1.hubErr 0x200) r [w32 done]
          else hostWrite vs (a + 4) (done + 1) s1

/-- PARAM_READ (R76, R84). -/
def opParamRead (s : State) (addr : Word) : OpRes :=
  let a := addr.toNat
  let c := s.paramCheck false [a]
  if c ≠ 0 then opRefuse s c
  else match placeOf a with
    | none => opRefuse s 0x08
    | some (p, o) =>
      let e := s.accessError 0x200 p o
      let s := s.hubSent 0x200 (portOf p)
      if e ≠ 0 then opRefuse (s.hubErr 0x200) e
      else if s.storedBad p o then opFault ((s.storedBadLog p o 0x200 true).hubErr 0x200) 0x03 [s.peek a]
      else match p with
        | .window t =>
          let (r, s1) := s.hostWindow t a false false 0 .one
          if r = 0 then (s1, .wait) else opRefuse (s.hubErr 0x200) r
        | _ =>
          let (w, s1) := s.readWord a
          opDone s1 [w]

/-- PARAM_WRITE (R81, R93). -/
def opParamWrite (s : State) (addr value : Word) : OpRes :=
  let a := addr.toNat
  let c := s.paramCheck true [a]
  if c ≠ 0 then opRefuse s c
  else match placeOf a with
    | none => opRefuse s 0x08
    | some (p, o) =>
      let e := s.accessError 0x200 p o
      let s := s.hubSent 0x200 (portOf p)
      if e ≠ 0 then opRefuse (s.hubErr 0x200) e
      else match p with
        | .window t =>
          let (r, s1) := s.hostWindow t a true false value .one
          if r = 0 then (s1, .wait) else opRefuse (s.hubErr 0x200) r
        | _ =>
          if s.dspHolds a value then (s.dspHold value (.host .one), .wait) else
          let (s1, r) := (s.meetCairns a).writeWord a value
          if r = 0x03 then opFault ((s1.storedBadLog p o 0x200 false).hubErr 0x200) r []
          else if r ≠ 0 then opRefuse (s1.hubErr 0x200) r
          else opDone s1 []

/-- PARAM_MODIFY (R66): one locked access whose read is a peek. -/
def opParamModify (s : State) (addr mask value : Word) : OpRes :=
  let a := addr.toNat
  let c := s.paramCheck true [a]
  if c ≠ 0 then opRefuse s c
  else match placeOf a with
    | none => opRefuse s 0x08
    | some (p, o) =>
      let e := s.accessError 0x200 p o
      let s := s.hubSent 0x200 (portOf p)
      if e ≠ 0 then opRefuse (s.hubErr 0x200) e
      else if s.storedBad p o then opFault ((s.storedBadLog p o 0x200 false).hubErr 0x200) 0x03 []
      else match p with
        | .window t =>
          let (r, s1) := s.hostWindow t a false true 0 (.modify mask value)
          if r = 0 then (s1, .wait) else opRefuse (s.hubErr 0x200) r
        | _ =>
          let s0 := s.meetCairns a
          let old := s0.peek a
          let new := modifyWord (specIn p o) old mask value
          if s0.dspHolds a new then (s0.dspHold new (.host (.modified old)), .wait) else
          let (s1, r) := s0.writeWord a new
          if r ≠ 0 then opRefuse (s1.hubErr 0x200) r else opDone s1 [old]

/-- PARAM_READ_BLOCK (R67). -/
def opParamReadBlock (s : State) (addr count : Word) : OpRes :=
  let n := count.toNat
  if n = 0 ∨ 4096 < n then opRefuse s 0x02
  else
    let c := s.paramCheck false (paramAddrs 0x13 [addr, count])
    if c ≠ 0 then opRefuse s c else hostRead n addr.toNat [] s

/-- PARAM_WRITE_BLOCK (R67). -/
def opParamWriteBlock (s : State) (addr : Word) (values : List Word) : OpRes :=
  let c := s.paramCheck true (paramAddrs 0x14 (addr :: values))
  if c ≠ 0 then opRefuse s c else hostWrite values addr.toNat 0 s

/-- The end of a command: its final reply, or it still runs. -/
def settleOp (r : OpRes) : State :=
  match r.2 with
  | .reply st re ws => r.1.finish st re ws
  | .wait =>
    { r.1 with gh := { r.1.gh with running := r.1.gh.running.map (fun x => { x with begun := true }) } }

/-! ### Answers of the fabric windows (R305) -/

/-- A PARAM_ command waits for the answer of a window. -/
def hostWaits (s : State) : Bool :=
  match s.gh.running with | some r => r.begun && decide (0x10 ≤ r.op ∧ r.op ≤ 0x14) | none => false

/-- A held request is over. -/
def unhold (s : State) (p : RwPkt) : State := { s with rw := { s.rw with holding := s.rw.holding.filter (fun h => decide (h.pkt ≠ p)) } }

/-- What the end of a window request means for the one that waits for it. The write of a MODIFY follows its read before any
request that waits (R66). -/
def windowReply (s : State) (t : Nat) (r : WinRequest) (reason : Byte) (data : Word) : State :=
  let again := fun (v : Word) (k : WinReply) =>
    s.winNext t { addr := r.addr, write := true, peek := false, data := v, reply := k }
  match r.reply with
  | .nobody => s
  | .peek => (if reason = 0 then s else s.hubErr 0x205).peekDone data reason
  | .packet p =>
    if p.kind = .modify ∧ reason = 0 then again ((data &&& ~~~p.mask) ||| (p.data &&& p.mask)) (.modified p data)
    else (s.unhold p).rwReply p reason data
  | .modified p old => (s.unhold p).rwReply p reason old
  | .host k =>
    let s := if reason = 0 then s else s.hubErr 0x200
    if !s.hostWaits then s
    else match k with
    | .one => if reason = 0 then s.finish 0 0 (if r.write then [] else [data]) else s.finish 0x02 reason []
    | .modify mask value =>
      if reason = 0 then again ((data &&& ~~~mask) ||| (value &&& mask)) (.host (.modified data))
      else s.finish 0x02 reason []
    | .modified old => if reason = 0 then s.finish 0 0 [old] else s.finish 0x02 reason []
    | .readBlock a left got =>
      if reason ≠ 0 then s.finish 0x03 reason got else settleOp (hostRead left (a + 4) (got ++ [data]) s)
    | .writeBlock a left done =>
      if reason ≠ 0 then s.finish 0x03 reason [w32 done] else settleOp (hostWrite left (a + 4) (done + 1) s)

/-- The request presented at a window ends. -/
def windowEnd (s : State) (t : Nat) (reason : Byte) (data : Word) : State :=
  match (s.terr t).window with
  | [] => s
  | r :: _ => (s.winPop t).windowReply t r reason data

/-- Every request pending at a window ends in an error (R339). -/
def windowAbort (s : State) (t : Nat) (reason : Byte) : State :=
  (List.range (s.terr t).window.length).foldl (fun (s : State) _ => s.windowEnd t reason 0) s

end State

/-! ### Window events -/

/-- The window port of terrace t carries an answer: ACK with the data of a read, or ERR (R281, R305). -/
def State.winAnswers (s : State) (t : Nat) (ack : Bool) (data : Word) : Bool :=
  if ack then s.inputBit t (.hard .winAck) &&
    ((s.terr t).window.head?.any (fun r => r.write) || s.hardSpells t .winData 32 data.toNat)
  else s.inputBit t (.hard .winErr)

/-- WINDOW_ANSWER: user logic answers with ACK and read data, or with ERR, on the port's clock line (R290, R305). -/
def execWindowAnswer (t : Nat) (ack : Bool) (data : Word) (dt : Nat) (s : State) : Out :=
  unitEvent (decide (t < 128)) dt s (fun s =>
    if s.winReady t ∧ s.portClocked t 5 ∧ s.winAnswers t ack data then s.windowEnd t (if ack then 0 else 0x08) data else s)

/-- WINDOW_TIMEOUT: no answer within TC_WIN_CFG.TMO units of 16 ns (R305). -/
def execWindowTimeout (t dt : Nat) (s : State) : Out :=
  unitEvent (decide (t < 128)) dt s (fun s =>
    if !(s.terr t).window.isEmpty ∧ s.rf (aTerr t + 0x40) 15 0 * 16000 ≤ s.now - (s.terr t).windowSince then
      (s.addCnt (aTerr t + 0x44) 1).windowEnd t 0x30 0
    else s)

/-! ### Rows of register accesses -/

/-- A register access reaches its register: the device is live and its memories are filled (R444, R445), the place is open to the
accessor (R30) and reached. The host's accesses need their auth level (R79, R510) and stay out of the ranges a flash boot writes
(R455). -/
def State.mayReach (s : State) (who : Accessor) (write : Bool) (a : Nat) : Bool :=
  s.live && s.gh.ready &&
  (match placeOf a with
    | none => false
    | some (p, o) =>
      (match who with
        | .host => !(write && decide (p = .cairns)) && decide (needAuth p write ≤ s.gh.auth) &&
            !(write && s.boot.booting && flashWrites p)
        | .belvedere => !write
        | .engine _ | .fabric _ => openTo p write) &&
      decide (s.accessError (Accessor.port who) p o = 0))

/-- The stored word at an address fails its code for a read, or for a write of a part of it (R488). -/
def State.wordFails (s : State) (write : Bool) (a : Nat) : Bool :=
  match placeOf a with
  | none => false
  | some (p, o) => s.storedBad p o && (!write || (match p with | .scratchpad _ => true | _ => false))

/-- A register access is carried out. -/
def State.mayAccess (s : State) (who : Accessor) (write : Bool) (a : Nat) : Bool :=
  s.mayReach who write a && !s.wordFails write a

/-- The log entry of an access to a word that fails its code, and what the word's storage does (R488). -/
def State.wordFailed (s : State) (who : Accessor) (write : Bool) (a : Nat) : State :=
  match placeOf a with
  | none => s
  | some (p, o) => s.storedBadLog p o (Accessor.port who) (!write)

/-- The number of an accessor's unit exists. -/
def Accessor.ok : Accessor → Bool
  | .engine e => decide (e < 64)
  | .fabric t => decide (t < 128)
  | _ => true

/-- An engine's or fabric logic's access to a range closed to it or outside the space (R30, R74). -/
def closedTo (who : Accessor) (write : Bool) (a : Nat) : Bool :=
  match who with
  | .engine _ | .fabric _ => (match placeOf a with | some (p, _) => !openTo p write | none => true)
  | _ => false

/-- The block an accessor's bus error is logged for. -/
def accessorBlock (who : Accessor) : Nat :=
  match who with
  | .engine e => engineId e
  | .fabric t => terraceId t
  | .host => 0x0001
  | .belvedere => 0x000A

/-- The row of a register access: the access, where the accessor may make it; a closed range ends in a bus error with its
log entry (R30), as does one to a stored word that fails its code (R488); any other refusal changes nothing. -/
def accessRow (ok : Bool) (who : Accessor) (write : Bool) (a : Nat) (s : State) (f : State → State) : Out :=
  if !(ok && Accessor.ok who) then .fault .noSuchUnit
  else if s.mayAccess who write a then .next (f s)
  else if s.mayReach who write a then .next (s.wordFailed who write a)
  else if s.live && closedTo who write a then
    .next (s.logEvent 0x20 (accessorBlock who) (w32 a) 0 (Accessor.port who))
  else .next s

/-- A register-level write row; an ENABLE Cairn due in this clock at the same bit acts first (R32). -/
def regWriteRow (ok : Bool) (who : Accessor) (a : Nat) (v : Word) (s : State) : Out :=
  accessRow ok who true a s (fun s =>
    if s.dspHolds a v then s.dspHold v .nobody else ((s.meetCairns a).writeWord a v).1)

/-- A register-level read row. -/
def regReadRow (ok : Bool) (who : Accessor) (a : Nat) (s : State) : Out :=
  accessRow ok who false a s (fun s => (s.readWord a).2)

end Sys2Proof.Machine
end

