-- ==== Sys2Proof/Machine/RwRows.lean ====
section
/-!
DEFINITION. The Ridgeway as events: requests at their targets, responses at their initiators, holding, timeouts,
discarded flits, isolated routers and lost links (R259-R271, R36).
-/
namespace Sys2Proof.Machine

open Sys2Proof State

/-- A port ID that names a port (R256, R257). -/
def portExists (p : Nat) : Bool :=
  if p < 0x200 then
    let m := p / 8 % 16
    let k := p % 8
    let inner := decide (m = 5) || decide (m = 6) || decide (m = 9) || decide (m = 10)
    decide (k ≤ 2) || decide (k = 7) || (decide (k = 3) && (inner || decide (m = 15))) || (decide (k = 4 ∨ k = 5) && inner) ||
      (decide (k = 6) && decide (m = 5 ∨ m = 9))
  else decide (p ≤ 0x20C)

/-- A kind of request packet (R259); undefined kinds count as requests, which the target answers (R260). -/
def isRequestKind : RwKind → Bool
  | .read | .write | .posted | .modify | .reserved _ => true
  | _ => false

def kindWrites : RwKind → Bool
  | .write | .posted | .modify => true
  | _ => false

/-- The port serves the place; a bank group is served at both its sides (R256). -/
def servedAt (dst : Nat) (p : Place) : Bool :=
  decide (dst = portOf p) || (match p with | .bankGroup _ => decide (dst = portOf p + 1) | _ => false)

/-- The source port may make the access (R30). -/
def portMay (src : Nat) (p : Place) (write : Bool) : Bool :=
  if src = 0x205 then !write
  else if 0x200 ≤ src then !(write && decide (p = .cairns))
  else openTo p write

namespace State

/-! ### Requests at their targets (R260, R265-R268) -/

/-- Why a request is answered before it reaches its target port: its path is cut (R270, R271, R36), or the domain's fence is
closed or its power off (R272). -/
def rwBlocked (s : State) (p : RwPkt) : Byte :=
  firstRefusal [
    (s.pathCut p.src p.dst, 0x07),
    (decide (s.reachFrom p.src (portDomain p.dst) ≠ 0), s.reachFrom p.src (portDomain p.dst))]

/-- Counts and entries of a request answered with an error on the way (R270, R272). -/
def rwErrorCount (s : State) (p : RwPkt) (reason : Byte) : State :=
  let b := portBase p.dst
  let dead : Bool := match portRouter p.dst with | some w => (s.router w).dead | none => false
  if (decide (reason = 0x07) && dead) = true then s.addCnt (b + 0x90) 1
  else if reason = 0x1C ∧ p.kind = .posted then s.addCnt (b + 0x8C) 1
  else s

/-- The place of its series a request has: 0 the next, from 65,472 a duplicate, to 63 behind a gap (R266). -/
def rwGap (s : State) (p : RwPkt) : Nat := (p.seq - (s.target p.src p.dst).expect).toNat

/-- A request answered with an error by the last live hop or a fence port. The request next in its series takes its number
with it, so that the series goes on (DESIGN CHOICE, log entry 24). On a cut path the answer comes from the live side of it. -/
def rwTurned (s : State) (p : RwPkt) (reason : Byte) : State :=
  let r := replyTo p reason 0 []
  let s0 := if s.rwGap p = 0 then (s.rwAdvance p).rwStore p r else s
  let s1 := ((s0.rwErrorCount p reason).enters r).packLog p reason
  if s.pathCut p.src p.dst then { s1 with rw := { s1.rw with turned := s1.rw.turned ++ [r] } } else s1

/-- A response is discarded on its way: its path is cut, unless the network itself gave it to a port that can receive (R270,
R271). -/
def rwDropped (s : State) (p : RwPkt) : Bool :=
  s.pathCut p.src p.dst && !(decide (p ∈ s.rw.turned) && !s.portDead p.dst)

/-- A READ of CIS_RD_TAG that waits for a word (R215). -/
def rwStalls (s : State) (pl : Place) (o : Nat) : Option Nat :=
  match pl with
  | .cistern i =>
    if o = 0x40 ∧ !s.cisReady i ∧ !(s.cis i).abortOwed ∧ s.rf (aCis i + 8) 23 16 ≠ 0 then some i else none
  | _ => none

/-- A port's access to a range closed to it is logged (R30). -/
def closedLog (s : State) (p : RwPkt) : State := s.logEvent 0x20 (portDomain p.src) p.addr 0 p.src

/-- Why a request does not act on a word at its target port: the range is closed to its initiator, the port does not serve it,
it cannot be reached, or for a read its stored word fails its code; and the log entry of it (R30, R268, R488). -/
def wordRefusal (s : State) (p : RwPkt) (write : Bool) (a : Nat) : Byte × State :=
  match placeOf a with
  | none => (0x08, s.closedLog p)
  | some (pl, o) =>
    if !portMay p.src pl write then (closedReason, s.closedLog p)
    else if !servedAt p.dst pl then (0x08, s)
    else if s.accessError p.src pl o ≠ 0 then (s.accessError p.src pl o, s)
    else if s.storedBad pl o ∧ (p.kind = .read ∨ p.kind = .modify) then (0x03, s.storedBadLog pl o p.src (decide (p.kind = .read)))
    else (0, s)

/-- The words of a READ that wants payload flits, from its address on, each of them tested as the first (R259, R268); a window,
which answers one word at a time, serves no further word. -/
def readRun (p : RwPkt) : Nat → Nat → List Word → State → Byte × List Word × State
  | 0, _, got, s => (0, got, s)
  | n + 1, a, got, s =>
    let (e, s1) := s.wordRefusal p false a
    if e ≠ 0 then (e, got, s1)
    else match placeOf a with
      | some (.window _, _) => (0x08, got, s1)
      | _ =>
        let (w, s2) := s1.readWord a
        readRun p n (a + 4) (got ++ [w]) s2

/-- A READ of a register: the word, and with RLEN n the next words of 16 + 32 n bytes of payload. -/
def rwRead (s : State) (p : RwPkt) (pl : Place) (o : Nat) : State :=
  let a := p.addr.toNat
  let (w, s1) := s.readWord a
  let n := p.reason.toNat % 64
  if n = 0 then s1.rwReply p 0 w
  else match pl, o with
    | .cistern i, 0x40 => s1.rwAnswerWith p (tagAnswer p w (s1.cisLatched i))
    | _, _ =>
      let (e, ws, s2) := readRun p (3 + 8 * n) (a + 4) [w] s1
      if e = 0 then s2.rwAnswerWith p (replyTo p 0 w ws) else s2.rwReply p e 0

/-! ### The memory of a DRAM channel (R239, R259) -/

/-- The DRAM channel whose memory a packet addresses: it goes from a bank group of its ridge, whose pager sends it, to the
channel's port. -/
def memChannel (p : RwPkt) : Option Nat :=
  (List.range 16).find? (fun d => decide (dramPort d = p.dst) &&
    (List.range 4).any (fun k => decide (groupPort (d / 4 * 4 + k) = p.src ∨ groupPort (d / 4 * 4 + k) + 1 = p.src)))

/-- The bytes of n lines of a channel from line l on, and whether the code or a tag fails in one. -/
def memLines (d : Nat) (key : Option Nat) : Nat → Nat → State → List Byte × Bool × State
  | 0, _, s => ([], false, s)
  | n + 1, l, s =>
    let (bs, bad, s1) := s.drFetchLine d l key .clean
    let (more, bad2, s2) := memLines d key n (l + 1) s1
    (bs ++ more, bad || bad2, s2)

/-- The bytes a packet writes to memory: its payload, or the word of its header. -/
def memBytes (p : RwPkt) (old : Word) : List Byte :=
  if p.kind = .modify then wordBytes ((old &&& ~~~p.mask) ||| (p.data &&& p.mask))
  else if p.payload = [] then wordBytes p.data else p.payload.flatMap wordBytes

/-- A packet at the memory of channel d: read, or written in its lines, encrypted under KEY where its ridge encrypts what it
spills (R424, R426; byte order and layout of payload DESIGN CHOICE, log entry 84). -/
def memServe (s : State) (p : RwPkt) (d : Nat) : State :=
  let a := p.addr.toNat
  let n := p.reason.toNat % 64
  let len := match p.kind with
    | .read => if n = 0 then 4 else 16 + 32 * n
    | .modify => 4
    | _ => if p.payload = [] then 4 else 4 * p.payload.length
  let key := if s.rb (aOrc (d / 4)) 2 then some p.key else none
  let s := match key with | some k => (s.keyMeet k).keyMeet (k + 1) | none => s
  if s.stopPend then s
  else if !s.drWorks d ∨ !(s.dr d).trained then s.rwReply p 0x07 0
  else if s.drBytes d < a + len then s.rwReply p 0x08 0
  else
    let (bs, bad, s1) := memLines d key ((a % 64 + len + 63) / 64) (a / 64) s
    let ws := toWords ((bs.drop (a % 64)).take len)
    let old := ws.getD 0 0
    if s1.stopPend then s1
    else if bad then s1.rwReply p 0x03 0
    else if p.kind = .read then s1.rwAnswerWith p (replyTo p 0 old (if n = 0 then [] else ws))
    else
      let new := bs.take (a % 64) ++ memBytes p old ++ bs.drop (a % 64 + len)
      let s2 := (List.range (new.length / 64)).foldl (fun (t : State) k =>
        t.drSpillLine d (a / 64 + k) key ((new.drop (64 * k)).take 64)) s1
      s2.rwReply p 0 old

/-- The target holds a request (R259). -/
def rwKeep (s : State) (p : RwPkt) : State :=
  { s with rw := { s.rw with holding := s.rw.holding ++ [({ pkt := p, toldAt := s.now } : RwHold)] } }

/-- The request is carried out at its place and answered. -/
def rwServe (s : State) (p : RwPkt) (pl : Place) (o : Nat) : State :=
  let a := p.addr.toNat
  match pl with
  | .window t =>
    if s.winReady t then
      let peek := decide (p.kind = .modify)
      ((s.rwKeep p).winAsk t
        { addr := a, write := (kindWrites p.kind) && !peek, peek := peek, data := p.data, reply := .packet p })
    else s.rwReply p 0x07 0
  | _ =>
    match p.kind with
    | .read =>
      match s.rwStalls pl o with
      | some i =>
        let h : HeldRead := { pkt := p, toldAt := s.now, until_ := s.now + s.cisStall i * 16000 }
        s.modCis i (fun x => { x with held := x.held ++ [h] })
      | none => s.rwRead p pl o
    | .modify =>
      let s0 := s.meetCairns a
      let old := s0.peek a
      let new := modifyWord (specIn pl o) old p.mask p.data
      if s0.dspHolds a new then (s0.rwKeep p).dspHold new (.modified p old)
      else
        let (s1, r) := s0.writeWord a new
        s1.rwReply p r old
    | _ =>
      if s.dspHolds a p.data then (s.rwKeep p).dspHold p.data (.packet p) else
      let (s1, r) := (s.meetCairns a).writeWord a p.data
      (if r = 0x03 then s1.storedBadLog pl o p.src false else s1).rwReply p r 0

/-- Frame data goes to a unit that a self-test tests (R517). -/
def frameTested (s : State) (p : RwPkt) : Bool :=
  match placeOf p.addr.toNat with | some (pl, _) => s.bistHolds pl | none => false

/-- The request next in its series: refused, or carried out at its address. Frame data (a POSTED with payload flits) is
taken and acknowledged; the frame's own rows say what it does (DESIGN CHOICE, log entry 77). -/
def rwCarry (s0 : State) (p : RwPkt) : State :=
  let s := s0.rwAdvance p
  match p.kind, memChannel p with
  | .reserved _, _ => s.rwReply p 0x02 0
  | _, some d => s.memServe p d
  | _, none =>
    if p.kind = .posted ∧ p.flits ≠ 0 then s.rwReply p (if s.frameTested p then 0x30 else 0) 0
    else
      let (e, s1) := s.wordRefusal p (kindWrites p.kind) p.addr.toNat
      match placeOf p.addr.toNat with
      | none => s1.rwReply p 0x08 0
      | some (pl, o) => if e ≠ 0 then s1.rwReply p e 0 else s1.rwServe p pl o

/-- A duplicate gets its stored response again; while it is held there is none (R266). -/
def rwAgain (s : State) (p : RwPkt) : State :=
  match (s.target p.src p.dst).stored.find? (fun r => decide (r.seq = p.seq)) with
  | some r => s.fly r
  | none => s

/-- The handling of a request by its SEQ (R266), unless the network answers it before its target port. -/
def rwArrive (s0 : State) (p : RwPkt) : State :=
  let b := portBase p.dst
  let gap := s0.rwGap p
  let e := s0.rwBlocked p
  let s := s0.portSees p.dst p
  if e ≠ 0 then s0.rwTurned p e
  else if gap = 0 then s.rwCarry p
  else if 65536 - 64 ≤ gap then (s.addCnt (b + 0x84) 1).rwAgain p
  else if gap ≤ 63 then s.addCnt (b + 0x88) 1
  else (s.addCnt (b + 0x88) 1).logEvent 0x21 (portDomain p.dst) (w32 (p.dst / 8 % 16 * 256 + p.dst % 8)) 0 p.src

/-- A request of a port whose logic the model does not run leaves it, or waits there for room (R262, R265, R270, R272). -/
def rwOffer (s : State) (p : RwPkt) (cistern : Bool) : State :=
  let q := { p with pri := sendPri p cistern }
  if s.unacked p.src < 64 ∧ s.portTakes p.src p.dst ∧ s.rw.waiting.all (fun x => decide (x.src ≠ p.src)) then s.rwSend .other none q
  else { s with rw := { s.rw with waiting := s.rw.waiting ++ [q] } }

/-! ### Initiators (R265, R267) -/

/-- The request a response answers. -/
def rwAnswered (s : State) (p : RwPkt) : Option Outstanding :=
  s.rw.outstanding.find? (fun o => decide (o.pkt.src = p.dst) && decide (o.pkt.dst = p.src) && decide (o.pkt.seq = p.seq))

/-- A response reaches its initiator. -/
def rwResponse (s0 : State) (p : RwPkt) : State :=
  let s := s0.portSees p.dst p
  match s.rwAnswered p with
  | none => s
  | some o => s.rwDone o (decide (p.kind = .err) || (decide (p.kind = .pack) && decide (p.reason ≠ 0))) p.data

/-- The request that a target holds (a READ of CIS_RD_TAG for STALL, any at a window port): its priority, and when it was
taken or the last HOLDING for it was sent. -/
def rwHeld (s : State) (dst src : Nat) (seq : BitVec 16) : Option (Nat × Nat) :=
  match s.rw.holding.find? (fun h => decide (h.pkt.src = src) && decide (h.pkt.dst = dst) && decide (h.pkt.seq = seq)) with
  | some h => some (h.pkt.pri, h.toldAt)
  | none =>
    ((s.cisterns.flatMap (fun e => e.2.held)).find? (fun h =>
      decide (h.pkt.src = src) && decide (h.pkt.dst = dst) && decide (h.pkt.seq = seq))).map (fun h => (h.pkt.pri, h.toldAt))

/-- A HOLDING for a held request was sent just now. -/
def rwTold (s : State) (dst src : Nat) (seq : BitVec 16) : State :=
  let hit := fun (a b : Nat) (q : BitVec 16) => decide (a = src) && decide (b = dst) && decide (q = seq)
  { s with
    rw := { s.rw with holding := s.rw.holding.map (fun h =>
      if hit h.pkt.src h.pkt.dst h.pkt.seq then { h with toldAt := s.now } else h) }
    cisterns := s.cisterns.map (fun e => (e.1, { e.2 with held := e.2.held.map (fun h =>
      if hit h.pkt.src h.pkt.dst h.pkt.seq then { h with toldAt := s.now } else h) })) }

/-- The HOLDING response to a held request, at its priority (R259, R261). -/
def holdingPkt (dst src : Nat) (seq : BitVec 16) (pri : Nat) : RwPkt :=
  { pri := pri, kind := .holding, dst := src, src := dst, seq := seq }

/-- One more round: the packet and every later one to the same target are sent again; from a port whose router is isolated
nothing leaves (R267, R271, R275). A closing fence lets them pass: they are no new requests (R272). -/
def rwResend (s : State) (o : Outstanding) : State :=
  let again := fun (x : Outstanding) =>
    decide (x.pkt.src = o.pkt.src) && decide (x.pkt.dst = o.pkt.dst) &&
      decide ((x.pkt.seq - o.pkt.seq).toNat < 64)
  let l := if s.portDead o.pkt.src then [] else s.rw.outstanding.filter again
  let s1 := { s with rw := { s.rw with
    air := s.rw.air ++ l.map Outstanding.pkt,
    outstanding := s.rw.outstanding.map (fun x =>
    if again x then { x with sentAt := s.now, rounds := if x.pkt.seq = o.pkt.seq then x.rounds + 1 else x.rounds } else x) } }
  (l.foldl (fun (s : State) (x : Outstanding) => s.portSees x.pkt.src x.pkt) s1).modStats o.pkt.src (fun st => { st with
    resent := min (2 ^ 32 - 1) (st.resent + l.length)
    flits := min (2 ^ 32 - 1) (st.flits + (l.map (fun (x : Outstanding) => 1 + x.pkt.flits)).sum) })

/-- Abandoned: a bus error for a non-posted request, a drop for a posted one, and the log entry (R267). -/
def rwAbandon (s : State) (o : Outstanding) : State :=
  let s1 := s.logEvent 0x25 (portDomain o.pkt.src) o.pkt.addr 0x07 o.pkt.src
  let s2 := { s1 with rw := { s1.rw with outstanding := s1.rw.outstanding.filter (fun x => decide (x ≠ o)) } }
  (s2.engineAnswer o true 0).roomFor o.pkt.src

/-- The requests that others still hold toward a domain whose series are dropped end as abandoned (R274, R267; DESIGN
CHOICE, log entry 24). -/
def endToward (s : State) (d : Nat) : State :=
  (s.rw.outstanding.filter (fun o => decide (portDomain o.pkt.dst = d) && decide (portDomain o.pkt.src ≠ d))).foldl
    (fun (s : State) o => s.rwAbandon o) s

/-- The timer of a pair reaches TMO (R267). While a switch of route tables holds the port, the round waits for its end (R270). -/
def rwTimeout (s : State) (src dst : Nat) : State :=
  let tmo := s.rf (portBase src) 7 0 * 1000000
  if s.portsHeld (src / 0x80) then s
  else match s.rw.outstanding.find? (fun o =>
      decide (o.pkt.src = src) && decide (o.pkt.dst = dst) && decide (tmo ≤ s.now - o.sentAt)) with
  | none => s
  | some o => if o.rounds < 3 then s.rwResend o else s.rwAbandon o

/-! ### Discards and isolation (R264, R269, R270) -/

/-- Hops from router m to the nearest interior router. -/
def hopsIn (m : Nat) : Nat :=
  (if m % 4 = 1 ∨ m % 4 = 2 then 0 else 1) + (if m / 4 = 1 ∨ m / 4 = 2 then 0 else 1)

/-- The router at the other end of mesh input 8 (west), 9 (east), 10 (north) or 11 (south) (DESIGN CHOICE, log entry 24). -/
def meshPeer (m input : Nat) : Option Nat :=
  match input with
  | 8 => if m % 4 = 0 then none else some (m - 1)
  | 9 => if m % 4 = 3 then none else some (m + 1)
  | 10 => if m < 4 then none else some (m - 4)
  | 11 => if 12 ≤ m then none else some (m + 4)
  | _ => none

/-- An input of router m: one of its local ports or a mesh link. -/
def inputExists (m input : Nat) : Bool :=
  if input < 8 then portExists (m * 8 + input) else (meshPeer m input).isSome

/-- The router a failed link isolates: the end farther from the gateway, a tie to the higher m (R269). -/
def fartherEnd (m input : Nat) : Nat :=
  match meshPeer m input with
  | none => m
  | some n =>
    if hopsIn n < hopsIn m then m else if hopsIn m < hopsIn n then n else max m n

/-- A router is declared dead (R270 step 1). -/
def isolate (s : State) (r m cause : Nat) : State :=
  let w := 16 * r + m
  let x := s.router w
  if x.dead then s
  else (s.setRouter w { x with dead := true, cause := cause, switching := true }).setReg (aGw r + 0xC) (w32 (cause * 16 + m))

/-- The packets discarded in the last millisecond on the link of an input, at both its ends for a mesh link (R264). -/
def linkDiscards (s : State) (r m input : Nat) : Nat :=
  let at_ := fun (w k : Nat) => ((s.router w).discards.filter (fun d => decide (s.now < d.1 + 10 ^ 9) && decide (d.2 = k))).length
  let back := if input % 2 = 0 then input + 1 else input - 1
  at_ (16 * r + m) input + (match meshPeer m input with | some n => at_ (16 * r + n) back | none => 0)

/-- What the check of a flit counts: at its router, and at the link for a gateway port a packet enters from it (R263; DEDUCED
for RW_LINK_CE and RW_LINK_UE, log entry 24). -/
def flitCount (s : State) (r m input : Nat) (p : RwPkt) (bad : Bool) : State :=
  let k := if bad then 4 else 0
  let s1 := s.addCnt (aRtr (16 * r + m) + k) 1
  match linkOf p.src p.dst with
  | some n => if isGatewayPort (r * 0x80 + m * 8 + input) ∧ input < 8 ∧ portRidge p.src ≠ some r then
      s1.addCnt (0x500100 + 8 * n + k) 1 else s1
  | none => s1

/-- A packet is discarded at an input after four replays (R264). -/
def flitDiscard (s0 : State) (r m input : Nat) (p : RwPkt) : State :=
  let s := s0.land p
  let w := 16 * r + m
  let s1 := (s.addCnt (aGw r + 0x80) 1).logEvent 0x21 (0x2800 + w) (w32 (m * 256 + input)) 0 p.src
  let recent := (s1.router w).discards.filter (fun d => decide (s1.now < d.1 + 10 ^ 9)) ++ [(s1.now, input)]
  let s2 := s1.setRouter w { s1.router w with discards := recent }
  if 16 ≤ s2.linkDiscards r m input then s2.isolate r (fartherEnd m input) 1 else s2

end State

/-! ### Rows -/

/-- REQUEST_AT_TARGET (R266): handled by SEQ, then answered, held or refused. A port whose logic the model does not run first
lets its request leave by the same row, while its domain is on (R265; DESIGN CHOICE, log entry 24). -/
def execRequestAtTarget (m : RwMove) (dt : Nat) (s : State) : Out :=
  unitEvent (portExists m.pkt.src && portExists m.pkt.dst) dt s (fun s =>
    match m with
    | .leaves p cistern =>
      if isRequestKind p.kind ∧ p.payload.length ≤ 4 + 8 * p.flits ∧ p.flits ≤ 63 ∧ s.domainOn (portDomain p.src) then
        s.rwOffer p cistern else s
    | .arrives p => if isRequestKind p.kind ∧ s.airFirst p then (s.land p).rwArrive p else s)

/-- RESPONSE_AT_INITIATOR (R265): a response on the network completes the request it answers, unless it is discarded on its
way (R270, R271). -/
def execResponseAtInitiator (p : RwPkt) (dt : Nat) (s : State) : Out :=
  unitEvent (portExists p.src && portExists p.dst) dt s (fun s =>
    if isResponseKind p.kind ∧ p.kind ≠ .holding ∧ s.airFirst p then
      if s.rwDropped p then s.land p else (s.land p).rwResponse p
    else s)

/-- HOLDING_SEND (R259): a target that has held a request for 10 µs, or 10 µs since it last told, tells its initiator. -/
def execHoldingSend (dst src : Nat) (seq : BitVec 16) (dt : Nat) (s : State) : Out :=
  unitEvent (portExists src && portExists dst) dt s (fun s =>
    match s.rwHeld dst src seq with
    | some (pri, told) =>
      if told + 10000000 ≤ s.now then (s.rwTold dst src seq).fly (holdingPkt dst src seq pri) else s
    | none => s)

/-- HOLDING_RECEIVED (R267): the initiator's timer for the held request starts again. -/
def execHoldingReceived (p : RwPkt) (dt : Nat) (s : State) : Out :=
  unitEvent (portExists p.src && portExists p.dst) dt s (fun s =>
    if p.kind = .holding ∧ s.airFirst p then
      let s1 := s.land p
      if s.pathCut p.src p.dst then s1
      else State.portSees { s1 with rw := { s1.rw with
          outstanding := s1.rw.outstanding.map (fun o =>
            if o.pkt.src = p.dst ∧ o.pkt.dst = p.src ∧ o.pkt.seq = p.seq then { o with sentAt := s.now } else o) } } p.dst p
    else s)

/-- RIDGEWAY_TIMEOUT (R267): a resend round, or after three the end. -/
def execRidgewayTimeout (src dst dt : Nat) (s : State) : Out :=
  unitEvent (portExists src && portExists dst) dt s (fun s => s.rwTimeout src dst)

/-- FLIT_UNCORRECTABLE (R263, R264): a flit of a packet on the network meets a check that finds an error: counted; after
four replays the packet is discarded at that hop. A corrected flit has no row of its own and is this row's other outcome. -/
def execFlitUncorrectable (r m input : Nat) (p : RwPkt) (found : FlitCheck) (dt : Nat) (s : State) : Out :=
  unitEvent (decide (r < 4 ∧ m < 16) && inputExists m input) dt s (fun s =>
    if (s.router (16 * r + m)).dead ∨ !s.domainOn (ridgeId r) ∨ p ∉ s.rw.air ∨ !s.onPath p (16 * r + m) input then s
    else match found with
      | .corrected => s.flitCount r m input p false
      | .uncorrectable replays =>
        let s1 := s.flitCount r m input p true
        if 4 ≤ replays then s1.flitDiscard r m input p else s1)

/-- HEARTBEAT_MISSED (R269): counted; the fourth in a row declares the router dead. -/
def execHeartbeatMissed (r m dt : Nat) (s : State) : Out :=
  unitEvent (decide (r < 4 ∧ m < 16)) dt s (fun s =>
    let w := 16 * r + m
    let x := s.router w
    if x.dead ∨ !s.domainOn (ridgeId r) then s
    else
      let n := if s.now ≤ x.missedAt + 3000000 then x.missed + 1 else 1
      let s1 := (s.addCnt (aGw r + 0x94) 1).setRouter w { x with missed := n, missedAt := s.now }
      if 4 ≤ n then s1.isolate r m 0 else s1)

/-- ROUTER_ERROR_REPORT (R269): an error in the router's own route table or buffer control. -/
def execRouterErrorReport (r m dt : Nat) (s : State) : Out :=
  unitEvent (decide (r < 4 ∧ m < 16)) dt s (fun s => if s.domainOn (ridgeId r) then s.isolate r m 2 else s)

/-- No packet is left on a path through router w but answers that the network has given (R270 step 3). -/
def State.pathClear (s : State) (w : Nat) : Bool :=
  s.rw.air.all (fun p => decide (p ∈ s.rw.turned) || decide (w ∉ routePath p.src p.dst))

/-- ROUTE_TABLE_SWITCH (R270 steps 3 and 4): tables avoid the dead router, local ports resume, the log records it. -/
def execRouteTableSwitch (r m dt : Nat) (s : State) : Out :=
  unitEvent (decide (r < 4 ∧ m < 16)) dt s (fun s =>
    let w := 16 * r + m
    let x := s.router w
    if x.switching ∧ s.pathClear w then
      ((s.setRouter w { x with switching := false }).logEvent 0x13 (0x2800 + w) (w32 m) 0 x.cause).resumePorts
    else s)

/-- GATEWAY_LINK_LOSS (R36, R271): the ridge or the pair of ridges is cut off; the log receives an entry. -/
def execGatewayLinkLoss (loss : LinkLoss) (dt : Nat) (s : State) : Out :=
  let ok := match loss with | .gateway r | .hubLink r => decide (r < 4) | .interRidge n => decide (n < 6)
  unitEvent ok dt s (fun s =>
    match loss with
    | .gateway r =>
      if r ∈ s.rw.cutGateways then s
      else State.logEvent { s with rw := { s.rw with cutGateways := s.rw.cutGateways ++ [r] } } 0x02 (ridgeId r) (w32 r) 0 0
    | .interRidge n =>
      if n ∈ s.rw.cutLinks then s
      else (State.logEvent { s with rw := { s.rw with cutLinks := s.rw.cutLinks ++ [n] } } 0x02 5 (w32 n) 0 0).addCnt
        (0x500104 + 8 * n) 1
    | .hubLink r =>
      if r ∈ s.rw.cutHub then s
      else (State.logEvent { s with rw := { s.rw with cutHub := s.rw.cutHub ++ [r] } } 0x02 5 (w32 (6 + r)) 0 0).addCnt
        (0x500134 + 8 * r) 1)

end Sys2Proof.Machine
end

