-- ==== Sys2Proof/Machine/Power.lean ====
section
/-!
DEFINITION. The gate tree and the power domains: GATE_SET, DOMAIN_POWER, the drain-and-fence handshake, memory fill and
the restore of a terrace (R33-R35, R271-R274, R308, R336-R341, R444, R445, R554-R557).
-/
namespace Sys2Proof.Machine

open Sys2Proof State

/-! ### The gate tree (R336) -/

/-- The number of units of a gate kind; 0 where the kind has no gate. -/
def gateCount (kind : Nat) : Nat :=
  match kind with
  | 0 => 1 | 1 => 4 | 2 => 128 | 3 => 8 | 5 => 36 | 8 => 16 | 9 => 16 | _ => 0

/-- The ID names a gate. -/
def isGate (g : Nat) : Bool := decide (g % 0x400 < gateCount (g / 0x400))

/-- Every gate. -/
def allGates : List Nat :=
  [0, 1, 2, 3, 5, 8, 9].flatMap (fun k => (List.range (gateCount k)).map (fun n => k * 0x400 + n))

/-- The parent of a ridge or unit gate; the root has none. -/
def gateParent (g : Nat) : Option Nat :=
  match g / 0x400 with
  | 0 => none
  | 1 => some 0
  | 8 | 9 => some (ridgeId (g % 0x400 / 4))
  | _ => some (parentOf g)

/-- A unit gate. -/
def isUnitGate (g : Nat) : Bool := decide (0x800 ≤ g)

namespace State

def laneLooped (s : State) (q : Nat) : Bool :=
  (List.range 4).any (fun k => s.chEn (4 * q + k) || decide ((s.lane (4 * q + k)).st = .loop))

def pavBusy (s : State) (p : Nat) : Bool := (List.range 8).any (fun k => decide ((s.eng (8 * p + k)).st ≠ .stopped))

/-- A request is outstanding at a DRAM channel (R337). -/
def drAsked (s : State) (n : Nat) : Bool := s.rw.outstanding.any (fun o => decide (o.pkt.dst = dramPort n))

/-- The unit may not lose its clock (last row of GATE_SET refusals). -/
def gateBusy (s : State) (g : Nat) : Bool :=
  let n := g % 0x400
  match g / 0x400 with
  | 3 => s.pavBusy n
  | 5 => s.laneLooped n
  | 8 => s.drSpill n || s.drAsked n
  | 9 => s.orcEn (n / 4)
  | _ => false

/-- The refusals of GATE_SET in order (R337). -/
def gateCheck (s : State) (g : Nat) (o : Bool) : Byte :=
  let d := domainOf g
  firstRefusal [
    (!isUnitGate g && !decide (s.mode = .staging) && !decide (s.mode = .drain), 0x05),
    (isUnitGate g && !s.domainOn d, 0x07),
    (isUnitGate g && decide (s.fence d ≠ .opened), 0x1C),
    (!o && allGates.any (fun c => decide (gateParent c = some g) && s.gateOpen c), 0x18),
    (o && (match gateParent g with | some p => !s.gateOpen p | none => false), 0x18),
    (!o && s.gateBusy g, 0x30)]

/-- A gate changes (R338, R339): DRAM devices enter or leave self-refresh, a terrace's Spurs keep their values,
pending window requests end in errors. -/
def gateMove (s : State) (g : Nat) (o : Bool) : State :=
  let n := g % 0x400
  let s1 := (if g / 0x400 = 2 ∧ !o then s.userGated n else s).setGate g o
  match g / 0x400 with
  | 8 => s1.modDr n (fun x => { x with
      selfRef := !o && x.powered, tempDue := none, trackDue := none, refFrom := s.now, refreshed := [] })
  | 2 => if o then s1 else s1.windowAbort n 0x07
  | _ => s1

/-- The fence of a domain opens: series start again at 0 (R274). -/
def openFence (s : State) (d : Nat) : State := (((s.endToward d).setFence d .opened).dropSeries d).resumePorts

/-- Step 1 of the handshake (R272). -/
def closeFence (s : State) (d : Nat) (gate : Bool) : State :=
  let s1 := s.setFence d .closing
  { s1 with pwr := { s1.pwr with op := some d, opGate := gate, opSince := s1.now } }

/-- GATE_SET (R337, R338). -/
def opGateSet (s : State) (gate opened : Word) : OpRes :=
  let g := gate.toNat
  let o := decide (opened = 1)
  if !isGate g ∨ 1 < opened.toNat then opRefuse s 0x02
  else if s.gateOpen g = o then opDone s []
  else
    let r := s.gateCheck g o
    if r ≠ 0 then opRefuse s r
    else if g / 0x400 = 1 then
      if o then opDone ((s.gateMove g true).openFence g) [] else if s.pwr.op.isSome then opRefuse s 0x30 else (s.closeFence g true, .wait)
    else opDone (s.gateMove g o) []

/-! ### DOMAIN_POWER -/

/-- A self-test in progress tests the domain. -/
def testing (s : State) (d : Nat) : Bool :=
  s.bist.setsLeft.any (fun n => decide (d ∈ setDomains n)) ||
  (match s.bist.march with
    | some (sel, _) => (marchUnits sel).any (fun n => decide (marchDomain (fld sel 31 24) n = d))
    | none => false)

/-- A committed PLANE or CAPTURE Cairn has a target in the domain. -/
def cairnHolds (s : State) (d : Nat) : Bool :=
  (List.range 4096).any (fun k =>
    let c := s.cairn k
    c.committed && c.binds && (s.targets k).any (fun u => decide (domainOf u = d) || decide (parentOf (domainOf u) = d)))

/-- A configured terrace that the base image does not mark as switchable (R285). -/
def notSwitchable (s : State) (d : Nat) : Bool :=
  decide (d / 0x400 = 2) && (s.terr (d % 0x400)).configured &&
  (match s.boot.base with
    | some b => !bit (Config.terraceInfo ((b.data 1 (d % 0x400)).getD []) 0) 0
    | none => true)

/-- The tests of R34 and R554 for a change, in order. -/
def powerCheck (s : State) (d : Nat) (on : Bool) : Byte :=
  let n := d % 0x400
  let busy := match d / 0x400 with
    | 3 => s.pavBusy n || (List.range 8).any (fun k => s.traceEngine (8 * n + k))
    | 5 => s.laneLooped n
    | _ => false
  firstRefusal [
    (!on && decide (d / 0x400 = 1) && (unitDomains n).any s.domainOn, 0x18),
    (!on && decide (d / 0x400 = 1) && !decide (s.mode = .staging) && !decide (s.mode = .drain), 0x05),
    (on && decide (d / 0x400 ≠ 1) && !s.domainOn (parentOf d), 0x18),
    (!on && s.notSwitchable d, 0x02),
    (!on && busy, 0x30),
    (s.testing d, 0x30),
    (s.cairnHolds d, 0x30)]

/-- The switch opens (R555, R341, R472): the domain's state is lost. -/
def domainSwitchOff (s : State) (d : Nat) : State :=
  let s0 := s.endToward d
  let s1 := if d / 0x400 = 2 then s0.windowAbort (d % 0x400) 0x07 else s0
  let s2 := if d / 0x400 = 1 then s1 else s1.setGate d false
  let s3 := ((s2.overlayDomainOff d).setFence d .closed).domainReset d
  ({ s3 with pwr := { s3.pwr with
      off := Table.set (fun _ => false) s3.pwr.off d true
      filled := Table.set (fun _ => false) s3.pwr.filled d false } }).logEvent 0x75 d (w32 d) 0 0

/-- A terrace that is switched on reloads its base plane from flash, or has no source (R557). -/
def restoreBegin (s : State) (t : Nat) : State × Nat :=
  match s.boot.base with
  | none => (s, 0)
  | some b =>
    if (b.data 1 t).isNone then (s, 0)
    else if s.reg 0x1800C ≠ 0xFFFFFFFF then (s.modTerr t (fun x => { x with restoring := true }), 0)
    else (s.setRb 0xF40000 29 true, 1)

/-- The switch closes (R556): the rail settles and the memories are filled, behind the closed fence and gate. -/
def domainSwitchOn (s : State) (d : Nat) : State :=
  let off := Table.set (fun _ => false) s.pwr.off d false
  let off2 := if d / 0x400 = 1 then (unitDomains (d % 0x400)).foldl (fun t u => Table.set (fun _ => false) t u true) off else off
  { s with pwr := { s.pwr with off := off2, op := some d, opGate := false, opOn := true, opSince := s.now } }

/-- The fill of a domain that is being switched on ends (R274, R444, R556): its reset has ended, fence and gate open, a
terrace's contents are to come, and the command replies DONE. -/
def domainUp (s : State) (d : Nat) : State :=
  let s1 := ({ s with pwr := { s.pwr with op := none, opOn := false } } : State).openFence d
  let s2 := if d / 0x400 ≠ 1 ∧ s1.gateOpen (parentOf d) then s1.setGate d true else s1
  let (s3, lost) := if d / 0x400 = 2 then s2.restoreBegin (d % 0x400) else (s2, 0)
  (s3.logEvent 0x76 d (w32 d) 0 lost).finishWait (fun o => decide (o = 0x58)) 0 0 []

/-- The router in front of a unit domain is isolated (R271). -/
def behindDead (s : State) (d : Nat) : Bool :=
  let n := d % 0x400
  match d / 0x400 with
  | 2 => s.portDead (terracePort n)
  | 3 => s.portDead (pavilionPort n)
  | 5 => s.portDead (quadPort n)
  | _ => false

/-- DOMAIN_POWER. -/
def opDomainPower (s : State) (target : Nat) (on : Word) : OpRes :=
  let d := target
  let up := decide (on = 1)
  if d = 0 ∨ d ∉ allDomains ∨ 1 < on.toNat then opRefuse s 0x02
  else
    let s0 := { s with pwr := { s.pwr with opDomain := d } }
    let isOn := decide (Table.get (fun _ => false) s.pwr.off d = false)
    if isOn = up then
      if up ∧ s.fence d = .closing then
        let s1 := (s0.setFence d .opened).resumePorts
        opDone { s1 with pwr := { s1.pwr with fenceHeld := false } } []
      else opDone s0 []
    else
      let r := s.powerCheck d up
      if r ≠ 0 then opRefuse s0 r
      else if !up ∧ s.behindDead d then opDone ((s0.domainSwitchOff d).logEvent 0x24 d (w32 d) 0 0) []
      else if s.pwr.op.isSome then opRefuse s0 0x30
      else if up then (s0.domainSwitchOn d, .wait)
      else (s0.closeFence d false, .wait)

/-! ### The handshake's end (R272-R274) -/

/-- A packet passes the fence of a domain: at the router ports of a unit domain one end of it is a port of the domain; at the
gateway ports of a ridge one end lies in the ridge and the other does not (R272). -/
def passesFence (d : Nat) (p : RwPkt) : Bool :=
  if d / 0x400 = 1 then decide (portRidge p.src ≠ portRidge p.dst) &&
    (decide (portRidge p.src = some (d % 0x400)) || decide (portRidge p.dst = some (d % 0x400)))
  else decide (portDomain p.src = d) || decide (portDomain p.dst = d)

/-- Nothing queued in either direction and nothing outstanding at the fence: no packet that passes it is on the network, no
request through it is unanswered, and no target holds one. A request still waiting in its port has not been injected, and
no longer is (R272 step 3). -/
def drained (s : State) (d : Nat) : Bool :=
  s.rw.air.all (fun p => !passesFence d p) && s.rw.outstanding.all (fun o => !passesFence d o.pkt) &&
  s.rw.holding.all (fun h => !passesFence d h.pkt) &&
  s.cisterns.all (fun e => e.2.held.all (fun h => !passesFence d h.pkt))

/-- The fence acknowledge: a ridge gate closes, or the domain is switched off; the command replies DONE. -/
def fenceAck (s : State) (d : Nat) : State :=
  let s1 := { s with pwr := { s.pwr with op := none } }
  if s.pwr.opGate then
    (((s1.setFence d .closed).gateMove d false).dropSeries d).finishWait (fun o => decide (o = 0x59)) 0 0 []
  else (s1.domainSwitchOff d).finishWait (fun o => decide (o = 0x58)) 0 0 []

/-- The contents of a restored terrace (R557): the base plane and block memories, then its start if STARTED. -/
def terraceRestore (s : State) (t : Nat) (crcOk : Bool) : State :=
  let s1 := s.modTerr t (fun x => { x with restoring := false })
  match s.boot.base with
  | none => s1
  | some b =>
    match b.data 1 t with
    | none => s1
    | some d =>
      if crcOk ∧ s.reg 0x1800C ≠ 0xFFFFFFFF then
        ((s1.modTerr t (fun x => { x with
          configured := true, config := d, activeSrc := 0, activeImage := b.id, plane := false,
          releaseDue := s.boot.started })).bramLoad t ((b.data 2 t).getD [])).userInit t
      else s1.setRb 0xF40000 29 true

end State

/-! ### Rows -/

/-- FENCE_ACKNOWLEDGE (R272): nothing queued or outstanding at the fence of the domain. -/
def execFenceAcknowledge (blk dt : Nat) (s : State) : Out :=
  unitEvent (decide (blk ∈ allDomains)) dt s (fun s =>
    if s.pwr.op = some blk ∧ !s.pwr.opOn ∧ s.drained blk then s.fenceAck blk else s)

/-- FENCE_TIMEOUT (R273): no acknowledge 800 µs after the request; the fence stays closed, the power on. -/
def execFenceTimeout (blk port dt : Nat) (s : State) : Out :=
  unitEvent (decide (blk ∈ allDomains) && portExists port) dt s (fun s =>
    if s.pwr.op = some blk ∧ !s.pwr.opOn ∧ s.pwr.opSince + 800000000 ≤ s.now then
      (State.logEvent { s with pwr := { s.pwr with op := none, fenceHeld := true } } 0x23 blk (w32 port) 0 0).finishWait
        (fun o => decide (o = 0x58) || decide (o = 0x59)) 0x03 0x30 []
    else s)

/-- TERRACE_RESTORE (R557): the contents have loaded from the base image's flash copy, as R493 accepts it. -/
def execTerraceRestore (t : Nat) (crcOk : Bool) (dt : Nat) (s : State) : Out :=
  unitEvent (decide (t < 128)) dt s (fun s => if (s.terr t).restoring then s.terraceRestore t crcOk else s)

/-- MEMORY_FILL_END (R444): the memories of a domain hold zero data with valid codes, after a reset of the device or a
switch-on. -/
def execMemoryFillEnd (blk dt : Nat) (s : State) : Out :=
  unitEvent (decide (blk ∈ allDomains)) dt s (fun s =>
    let s1 := { s with pwr := { s.pwr with filled := Table.set (fun _ => false) s.pwr.filled blk true } }
    if s.pwr.op = some blk ∧ s.pwr.opOn then s1.domainUp blk else s1)

/-- GATEHOUSE_READY (R445): once every domain is filled the Gatehouse accepts packets; with BOOTSEL 0b01 or 0b10 it reads
the flash by itself (R455). -/
def execGatehouseReady (dt : Nat) (s : State) : Out :=
  event dt s (fun s =>
    if s.gh.ready ∨ !allDomains.all (fun d => Table.get (fun _ => false) s.pwr.filled d) then s
    else { s with
      gh := { s.gh with ready := true }
      boot := { s.boot with booting := decide (s.boot.bootsel = 1) || decide (s.boot.bootsel = 2) } })

end Sys2Proof.Machine
end

