-- ==== Sys2Proof/Machine/Gatehouse.lean ====
section
/-!
DEFINITION. The command port: transactions, the checks of R50, the held reply and the replay cache, and the rows of the
opcodes (R40-R72, R96, R445, R517).
-/
namespace Sys2Proof.Machine

open Sys2Proof State

/-! ### The opcode table (R65) -/

/-- The mode sets of the opcode table. -/
inductive ModeSet where
  | any | run | boot | quiet | notDrain | imageBegin | imageLoad | bist | march
deriving DecidableEq, Repr

/-- An opcode's range of N, its modes and its auth level. -/
structure OpSpec where
  nmin : Nat
  nmax : Nat
  modes : ModeSet
  auth : Nat

/-- The opcode table; none for an undefined opcode. -/
def opSpec (op : Nat) : Option OpSpec :=
  match op with
  | 0x01 => some ⟨0, 16, .any, 0⟩
  | 0x02 | 0x03 | 0x7E => some ⟨0, 0, .any, 0⟩
  | 0x10 => some ⟨1, 1, .any, 0⟩
  | 0x11 | 0x13 | 0x60 => some ⟨2, 2, .any, 0⟩
  | 0x12 => some ⟨3, 3, .any, 0⟩
  | 0x14 => some ⟨2, 4096, .any, 0⟩
  | 0x20 => some ⟨5, 5, .imageBegin, 1⟩
  | 0x21 => some ⟨2, 4096, .imageLoad, 1⟩
  | 0x22 => some ⟨0, 0, .imageLoad, 1⟩
  | 0x23 | 0x32 | 0x41 | 0x4A => some ⟨1, 1, .run, 0⟩
  | 0x24 | 0x25 | 0x31 | 0x42 | 0x49 => some ⟨2, 2, .run, 0⟩
  | 0x26 => some ⟨0, 0, .boot, 1⟩
  | 0x30 | 0x33 => some ⟨3, 3, .run, 0⟩
  | 0x34 => some ⟨4, 4, .run, 0⟩
  | 0x35 => some ⟨2, 2, .quiet, 0⟩
  | 0x36 => some ⟨2, 2, .notDrain, 0⟩
  | 0x40 => some ⟨5, 5, .run, 0⟩
  | 0x43 => some ⟨3, 3, .quiet, 1⟩
  | 0x48 => some ⟨3, 4096, .run, 1⟩
  | 0x50 => some ⟨1, 1, .bist, 1⟩
  | 0x51 => some ⟨2, 2, .march, 1⟩
  | 0x52 => some ⟨2, 2, .run, 2⟩
  | 0x53 | 0x71 => some ⟨1, 1, .any, 1⟩
  | 0x58 => some ⟨1, 1, .run, 1⟩
  | 0x59 => some ⟨2, 2, .run, 1⟩
  | 0x61 | 0x7F => some ⟨1, 1, .any, 0⟩
  | 0x62 => some ⟨3, 3, .run, 1⟩
  | 0x70 => some ⟨11, 11, .any, 1⟩
  | 0x78 => some ⟨1, 13, .any, 0⟩
  | _ => none

/-- A target block ID of the table of kinds (R24, R25). -/
def blockExists (id : Nat) : Bool :=
  let n := id % 0x400
  match id / 0x400 with
  | 0 => decide (n < 13) | 1 => decide (n < 4) | 2 => decide (n < 128) | 3 => decide (n < 8) | 4 => decide (n < 64)
  | 5 => decide (n < 36) | 6 => decide (n < 144) | 7 => decide (n < 272) | 8 | 9 => decide (n < 16)
  | 10 => decide (n < 64) | 11 => decide (n < 13) | _ => false

/-- The opcodes that run in INTEGRITY STOP (R50 step 6). -/
def statusOp (op : Nat) : Bool := decide (op = 1) || decide (op = 2) || decide (op = 3)

/-- A PARAM_ opcode. -/
def isParamOp (op : Nat) : Bool := decide (0x10 ≤ op ∧ op ≤ 0x14)

/-- A packet's parameters have the shape that its phase or type defines (R511, R69); others are refused with 0x02. -/
def shapeOk (op : Nat) (ws : List Word) : Bool :=
  let k := (ws.getD 0 0).toNat
  if op = 0x78 then
    (decide (k = 0 ∨ k = 2) && decide (ws.length = 2)) || (decide (k = 1) && decide (ws.length = 13))
  else if op = 0x7F then decide (k < 2)
  else true

/-- The place a block ID stands for among the units that a self-test may test. -/
def placeOfId (id : Nat) : Option Place :=
  let n := id % 0x400
  match id / 0x400 with
  | 1 => some (.gateway n) | 2 => some (.terrace n) | 3 => some (.pavilion n) | 4 => some (.engine n)
  | 5 => some (.quad n) | 6 => some (.channel n) | 7 => some (.cistern n) | 8 => some (.dram n)
  | 9 => some (.bankGroup n) | 10 => some (.router n) | _ => none

/-- The unit a command other than a PARAM_ opcode names. -/
def cmdUnit (op : Nat) (h : Hdr) (ws : List Word) : Option Nat :=
  let k := (ws.getD 0 0).toNat
  if op ∈ [0x30, 0x31, 0x32, 0x36] then some (chanId k)
  else if op ∈ [0x33, 0x34, 0x35] then some (quadId (k / 4))
  else if op ∈ [0x48, 0x49, 0x4A] then some (engineId k)
  else if op = 0x58 then some h.target.toNat
  else if op = 0x59 then some k
  else if op = 0x62 then some (dramId k)
  else none

namespace State

/-! ### The checks of R50 -/

/-- Step 11: the current mode is in an opcode's set. The table gives modes for IMAGE_BEGIN of kind 0 and 1; a kind above 1
passes here in any mode and is refused with 0x02 by the command's own checks (DESIGN CHOICE, log entry 23). -/
def modeOk (s : State) (m : ModeSet) (ws : List Word) : Bool :=
  let quiet := decide (s.mode = .staging) || decide (s.mode = .drain)
  let byKind := fun (k : Nat) => if k = 0 then decide (s.mode = .boot) else if k = 1 then s.runMode else true
  match m with
  | .any => true
  | .run => s.runMode
  | .boot => decide (s.mode = .boot)
  | .quiet => quiet || decide (s.mode = .maintain)
  | .notDrain => s.runMode && !decide (s.mode = .drain)
  | .imageBegin => byKind (ws.getD 0 0).toNat
  | .imageLoad => match s.boot.load with | some l => byKind l.kind | none => true
  | .bist => quiet || decide (s.mode = .boot)
  | .march => quiet || decide (s.mode = .boot) || (decide (ws.getD 1 0 = 1) && decide (s.mode = .maintain))

/-- Why DOMAIN_POWER may not name a block: one inside a domain that is off or fenced, or in a fenced ridge, as any command
(R25, R35). A domain itself may be named while off, and on is taken while its own fence is closed (R273, R554). -/
def powerTarget (s : State) (id : Nat) (ws : List Word) : Byte :=
  if domainOf id ≠ id then s.reach (domainOf id)
  else if s.fence id ≠ .opened ∧ ws.getD 0 0 ≠ 1 ∧ s.domainOn id then 0x1C
  else if s.domainOn (parentOf id) ∧ s.fence (parentOf id) ≠ .opened then 0x1C
  else 0

/-- Step 9: the target block (R25, R26, R35). -/
def targetCheck (s : State) (op : Nat) (h : Hdr) (ws : List Word) : Byte :=
  let id := h.target.toNat
  let r := if op = 0x58 then s.powerTarget id ws else s.reach (domainOf id)
  if !blockExists id then 0x07
  else if r ≠ 0 then r
  else if isParamOp op then paramTarget id (paramAddrs op ws)
  else 0

/-- Steps 6 to 11 and the shape of step 12: status and reason of the first failing check, none when all pass. -/
def generalCheck (s : State) (op : Nat) (h : Hdr) (ws : List Word) : Option (Byte × Byte) :=
  let stopping := s.stopPend || decide (s.mode = .stop)
  if stopping && !statusOp op then some (0x06, 0x40)
  else match opSpec op with
    | none => some (0x02, 0x01)
    | some sp =>
      let t := s.targetCheck op h ws
      let auth := if op = 0x7F ∧ ws.getD 0 0 = 1 then 1 else sp.auth
      if ws.length < sp.nmin ∨ sp.nmax < ws.length then some (0x02, 0x02)
      else if t ≠ 0 then some (0x02, t)
      else if s.gh.auth < auth then some (0x02, 0x06)
      else if isParamOp op && !paramAuthOk s.gh.auth (paramWrites op) (paramAddrs op ws) then some (0x02, 0x06)
      else if !stopping && !s.modeOk sp.modes ws then some (0x02, 0x05)
      else if !shapeOk op ws then some (0x02, 0x02)
      else none

/-- A transaction that is not accepted (R44, R50 steps 1 to 3, R445). -/
def portBad (s : State) (status reason : Byte) : State :=
  { s with gh := { s.gh with lastStatus := status, lastReason := reason, badFrames := min 0xFF (s.gh.badFrames + 1) } }

/-- An accepted packet (R51, steps 4 to 11): refused, replayed, or running. -/
def acceptPacket (s0 : State) (op : Nat) (h : Hdr) (ws : List Word) (crc : Word) : State :=
  let s := { s0 with gh := { s0.gh with lastStatus := 0, lastReason := 0 } }
  let s1 := { s with gh := { s.gh with
    running := some { op := op, hdr := h, params := ws, crc := crc, acceptedAt := s.now } } }
  if h.tag = 0 ∨ h.flags &&& 0xFE ≠ 0 then s1.finish 0x02 0x02 []
  else match s.gh.cache.find? (fun e => decide (e.tag = h.tag)) with
    | some e =>
      if e.crc ≠ crc then s1.finish 0x02 0x04 []
      else
        let rep := if e.reply.status = 0 then { e.reply with status := 0x04 } else e.reply
        -- an answer with REPLAY takes no entry; the stored refusal or fault of an accepted packet takes a new one (R56)
        let cache := if e.reply.status = 0 then s.gh.cache
          else (s.gh.cache ++ [({ tag := h.tag, crc := crc, reply := rep } : CacheEntry)]).drop (s.gh.cache.length + 1 - 16)
        { s with gh := { s.gh with
          held := rep, cache := cache, alert := s.gh.alert || decide (h.flags &&& 1 ≠ 0),
          raised := s.gh.raised || decide (h.flags &&& 1 ≠ 0) } }
    | none =>
      match s.generalCheck op h ws with
      | some (st, re) => s1.finish st re []
      | none => s1

/-- What the port shows: the held reply, PENDING while a command runs (R53). -/
def heldView (s : State) : Held :=
  match s.gh.running with
  | some r => { opcode := BitVec.ofNat 8 r.op, status := 0x01, tag := r.hdr.tag, target := r.hdr.target }
  | none => s.gh.held

def portView (s : State) : PortView := { held := s.heldView, stat := s.portStat, info := s.replyInfo }

/-- The Gatehouse judges a packet at the rise of CPORT_CS_N. -/
def judgePacket (s0 : State) (bytes : List Byte) : State :=
  let s := { s0 with gh := { s0.gh with before := s0.portView, raised := false } }
  let ws := toWords bytes
  let n := fld (ws.getD 1 0) 31 16
  if !s.gh.ready ∨ s.gh.running.isSome then s.portBad 0x02 0x30
  else if bytes.length % 4 ≠ 0 ∨ bytes.length < 12 ∨ ws.length ≠ 3 + n ∨ 4096 < n then s.portBad 0x05 0x02
  else
    let body := ws.take (2 + n)
    let crc := ws.getD (2 + n) 0
    if crc32cWords body ≠ crc then s.portBad 0x05 0x03
    else
      let w0 := ws.getD 0 0
      let h : Hdr := {
        flags := BitVec.ofNat 8 (fld w0 23 16), tag := BitVec.ofNat 16 (fld w0 15 0),
        target := BitVec.ofNat 16 (fld (ws.getD 1 0) 15 0) }
      s.acceptPacket (fld w0 31 24) h (body.drop 2) crc

/-- The bytes of a command packet (R47). -/
def packetBytes (op : Nat) (h : Hdr) (ws : List Word) : List Byte :=
  let body := [at_ 24 op ||| at_ 16 h.flags.toNat ||| w32 h.tag.toNat, at_ 16 ws.length ||| w32 h.target.toNat] ++ ws
  (body ++ [crc32cWords body]).flatMap wordBytes

/-- The Gatehouse has accepted this packet and has not begun to act on it. -/
def accepted (s : State) (op : Nat) (h : Hdr) (ws : List Word) : Bool :=
  match s.gh.running with
  | some r => decide (r.op = op) && decide (r.hdr = h) && decide (r.params = ws) && !r.begun
  | none => false

/-- A command refused while a self-test set runs (R517). -/
def bistRefuses (s : State) (op : Nat) (h : Hdr) (ws : List Word) : Bool :=
  let running := !s.bist.setsLeft.isEmpty
  let unit := match cmdUnit op h ws with
    | some id => (match placeOfId id with | some p => s.bistTouches p | none => false) ||
        (decide (op = 0x58 ∨ op = 0x59) && (setDomains s.bist.setNow).any (fun d => decide (d = id ∨ parentOf d = id)))
    | none => false
  let base := decide (s.bist.setNow = 4) &&
    ((decide (op = 0x20) && decide (ws.getD 0 0 = 0)) || decide (op = 0x26) ||
      (decide (op = 0x22) && (match s.boot.load with | some l => decide (l.kind = 0) | none => false)))
  running && (unit || base || (decide (s.bist.setNow = 1) && op ∉ [0x01, 0x02, 0x03, 0x7E, 0x7F]))

/-- The reason a channel, lane, engine or DRAM channel that a command names by its first parameter cannot be reached: its domain
off 0x07 or fenced 0x1C, the path to it cut 0x07 (R35, R36, R270, R271; DEDUCED, log entry 42). -/
def unitReach (s : State) (op : Nat) (ws : List Word) : Byte :=
  let k := (ws.getD 0 0).toNat
  let at_ := fun (d port : Nat) => if s.reach d ≠ 0 then s.reach d else if s.pathCut 0x200 port then 0x07 else 0
  if op ∈ [0x30, 0x31, 0x32, 0x33, 0x34, 0x35, 0x36] ∧ k < 144 then at_ (quadId (k / 4)) (quadPort (k / 4))
  else if op ∈ [0x48, 0x49, 0x4A] ∧ k < 64 then at_ (pavilionId (k / 8)) (pavilionPort (k / 8))
  else if op = 0x62 ∧ k < 16 then at_ (ridgeId (k / 4)) (dramPort k)
  else 0

end State

/-- The row of an opcode: the packet runs if it is accepted, or is first judged as WRITE_PACKET judges it. -/
def cmdRow (op : Nat) (h : Hdr) (ws : List Word) (s : State) (act : State → State) : Out :=
  if s.pwr.held then .next s
  else
    let s1 := if s.accepted op h ws then s else s.judgePacket (packetBytes op h ws)
    if s1.accepted op h ws then
      .next (if s1.bistRefuses op h ws then s1.finish 0x02 0x30 []
        else if s1.unitReach op ws ≠ 0 then s1.finish 0x02 (s1.unitReach op ws) []
        else act s1)
    else .next s1

/-- The row of an opcode whose effect ends in a reply. -/
def opRow (op : Nat) (h : Hdr) (ws : List Word) (s : State) (f : State → OpRes) : Out :=
  cmdRow op h ws s (fun s => settleOp (f s))

/-! ### Port transactions -/

/-- WRITE_PACKET: the packet is judged; one that starts inside tGAPW is discarded as busy (R46, R50). What an early read
after a packet so discarded sees stays the state before the packet that was judged (DESIGN CHOICE, log entry 83). -/
def execWritePacket (bytes : List Byte) (early : Bool) (s : State) : Out :=
  if s.pwr.held then .next s
  else .next (if early then s.portBad 0x02 0x30 else s.judgePacket bytes)

/-- READ_REPLY: the held reply from word 0, zeros after its CRC word (R42, R46, R53). -/
def execReadReply (early : Bool) (words : Nat) (s : State) : Out :=
  if s.pwr.held then .next s
  else
    let ws := (if early then s.gh.before.held else s.heldView).words
    let all := ws ++ [crc32cWords ws]
    .next { s with gh := { s.gh with portOut := (List.range words).map (fun k => all.getD k 0) } }

/-- READ_STATUS: three words; CPORT_ALERT_N is released (R43). An early one comes before the judgement of the packet, whose
alert still follows (R46). -/
def execReadStatus (early : Bool) (s : State) : Out :=
  if s.pwr.held then .next s
  else
    let ws := if early then [s.gh.before.stat, s.gh.before.info] else [s.portStat, s.replyInfo]
    .next { s with gh := { s.gh with portOut := ws ++ [crc32cWords ws], alert := early && s.gh.raised } }

/-- BAD_TRANSACTION_CODE: any other first byte (R44). -/
def execBadTransactionCode (code : Byte) (s : State) : Out :=
  if s.pwr.held ∨ code ∈ ([0x02, 0x32, 0x0B, 0x6B, 0x05, 0x65] : List Byte) then .next s
  else .next (s.portBad 0x05 0x01)

/-- WATCHDOG_EXPIRY: the count has run out (R63, R64). -/
def execWatchdogExpiry (dt : Nat) (s : State) : Out :=
  let s1 := s.advance dt
  let ms := s1.rf 0x10010 15 0
  if s1.pwr.held ∨ ms = 0 ∨ s1.gh.wdog ≠ 0 then .next s1
  else .next (State.logEvent
    (({ s1 with gh := { s1.gh with wdog := ms * 1000000000 } } : State).setRb 0x10000 11 true) 0x48 0x0001 0 0 0)

/-! ### Opcodes -/

/-- PING: the words it was given (R65). -/
def execPing (h : Hdr) (words : List Word) (s : State) : Out := opRow 0x01 h words s (fun s => opDone s words)

/-- IDENTIFY: eight registers at one instant (R96). -/
def execIdentify (h : Hdr) (s : State) : Out :=
  opRow 0x02 h [] s (fun s => opDone s ([0x00, 0x04, 0x08, 0x0C, 0x1C, 0x20, 0x24, 0x10].map s.peek))

/-- STATUS: four registers at one instant (R96). -/
def execStatus (h : Hdr) (s : State) : Out :=
  opRow 0x03 h [] s (fun s => opDone s ([0x10, 0x18, 0x28, 0x10000].map s.peek))

/-- PARAM_READ (R76, R84). -/
def execParamRead (h : Hdr) (addr : Word) (s : State) : Out :=
  opRow 0x10 h [addr] s (fun s => s.opParamRead addr)

/-- PARAM_WRITE (R81, R93). -/
def execParamWrite (h : Hdr) (addr value : Word) (s : State) : Out :=
  opRow 0x11 h [addr, value] s (fun s => s.opParamWrite addr value)

/-- PARAM_MODIFY (R66). -/
def execParamModify (h : Hdr) (addr mask value : Word) (s : State) : Out :=
  opRow 0x12 h [addr, mask, value] s (fun s => s.opParamModify addr mask value)

/-- PARAM_READ_BLOCK (R67). -/
def execParamReadBlock (h : Hdr) (addr count : Word) (s : State) : Out :=
  opRow 0x13 h [addr, count] s (fun s => s.opParamReadBlock addr count)

/-- PARAM_WRITE_BLOCK (R67). -/
def execParamWriteBlock (h : Hdr) (addr : Word) (values : List Word) (s : State) : Out :=
  opRow 0x14 h (addr :: values) s (fun s => s.opParamWriteBlock addr values)

/-- IMAGE_BEGIN (R450). -/
def execImageBegin (h : Hdr) (kind ovl len src flash : Word) (s : State) : Out :=
  opRow 0x20 h [kind, ovl, len, src, flash] s (fun s => s.opImageBegin kind ovl len src flash)

/-- IMAGE_DATA (R451). -/
def execImageData (h : Hdr) (offset : Word) (words : List Word) (s : State) : Out :=
  opRow 0x21 h (offset :: words) s (fun s => s.opImageData offset words)

/-- OVERLAY_STAGE (R470). -/
def execOverlayStage (h : Hdr) (ovl : Word) (s : State) : Out :=
  opRow 0x23 h [ovl] s (fun s => s.opOverlayStage ovl)

/-- OVERLAY_APPLY (R473). -/
def execOverlayApply (h : Hdr) (ovl cairn : Word) (s : State) : Out :=
  opRow 0x24 h [ovl, cairn] s (fun s => s.opOverlayApply ovl cairn)

/-- MODE_ENTER (R473). -/
def execModeEnter (h : Hdr) (mode cairn : Word) (s : State) : Out :=
  opRow 0x25 h [mode, cairn] s (fun s => s.opModeEnter mode cairn)

/-- START (R460). -/
def execStart (h : Hdr) (s : State) : Out := opRow 0x26 h [] s opStart

/-- CHANNEL_ENABLE (R202). -/
def execChannelEnable (h : Hdr) (ch step group : Word) (s : State) : Out :=
  opRow 0x30 h [ch, step, group] s (fun s => s.opChannelEnable ch step group)

/-- CHANNEL_RETIRE (R189). -/
def execChannelRetire (h : Hdr) (ch spare : Word) (s : State) : Out :=
  opRow 0x31 h [ch, spare] s (fun s => s.opChannelRetire ch spare)

/-- CHANNEL_RESTORE (R191). -/
def execChannelRestore (h : Hdr) (ch : Word) (s : State) : Out :=
  opRow 0x32 h [ch] s (fun s => s.opChannelRestore ch)

/-- LANE_SLIP (R161). -/
def execLaneSlip (h : Hdr) (lane slip dir : Word) (s : State) : Out :=
  opRow 0x33 h [lane, slip, dir] s (fun s => s.opLaneSlip lane slip dir)

/-- EYE_SCAN (R157). -/
def execEyeScan (h : Hdr) (lane phase volt dwell : Word) (s : State) : Out :=
  opRow 0x34 h [lane, phase, volt, dwell] s (fun s => s.opEyeScan lane phase volt dwell)

/-- LOOPBACK (R154). -/
def execLoopback (h : Hdr) (lane kind : Word) (s : State) : Out :=
  opRow 0x35 h [lane, kind] s (fun s => s.opLoopback lane kind)

/-- LADDER_RESTART (R151). -/
def execLadderRestart (h : Hdr) (ch step : Word) (s : State) : Out :=
  opRow 0x36 h [ch, step] s (fun s => s.opLadderRestart ch step)

/-- CAIRN_SET (R126). -/
def execCairnSet (h : Hdr) (index sf fp act rep : Word) (s : State) : Out :=
  opRow 0x40 h [index, sf, fp, act, rep] s (fun s => s.opCairnSet index sf fp act rep)

/-- CAIRN_CANCEL (R128). -/
def execCairnCancel (h : Hdr) (index : Word) (s : State) : Out :=
  opRow 0x41 h [index] s (fun s => s.opCairnCancel index)

/-- TIME_ADDEND (R116). -/
def execTimeAddend (h : Hdr) (hi lo : Word) (s : State) : Out :=
  opRow 0x42 h [hi, lo] s (fun s => s.opTimeAddend hi lo)

/-- TIME_STEP (R117). -/
def execTimeStep (h : Hdr) (w2 w1 w0 : Word) (s : State) : Out :=
  opRow 0x43 h [w2, w1, w0] s (fun s => s.opTimeStep w2 w1 w0)

/-- ENGINE_LOAD (R345). -/
def execEngineLoad (h : Hdr) (engine offset : Word) (words : List Word) (s : State) : Out :=
  opRow 0x48 h (engine :: offset :: words) s (fun s => s.opEngineLoad engine offset words)

/-- ENGINE_START (R346). -/
def execEngineStart (h : Hdr) (engine addr : Word) (s : State) : Out :=
  opRow 0x49 h [engine, addr] s (fun s => s.opEngineStart engine addr)

/-- ENGINE_STOP (R347). -/
def execEngineStop (h : Hdr) (engine : Word) (s : State) : Out :=
  opRow 0x4A h [engine] s (fun s => s.opEngineStop engine)

/-- BIST_RUN (R516). -/
def execBistRun (h : Hdr) (mask : Word) (s : State) : Out := opRow 0x50 h [mask] s (fun s => s.opBistRun mask)

/-- MARCH_RUN (R521). -/
def execMarchRun (h : Hdr) (select form : Word) (s : State) : Out :=
  opRow 0x51 h [select, form] s (fun s => s.opMarchRun select form)

/-- CAPTURE (R526). -/
def execCapture (h : Hdr) (trigger cairn : Word) (s : State) : Out :=
  opRow 0x52 h [trigger, cairn] s (fun s => s.opCapture trigger cairn)

/-- SIGNATURE_READ (R525). -/
def execSignatureRead (h : Hdr) (select : Word) (s : State) : Out :=
  opRow 0x53 h [select] s (fun s => s.opSignatureRead select)

/-- DOMAIN_POWER (R554): the domain is the target block. -/
def execDomainPower (h : Hdr) (on : Word) (s : State) : Out :=
  opRow 0x58 h [on] s (fun s => s.opDomainPower h.target.toNat on)

/-- GATE_SET (R337). -/
def execGateSet (h : Hdr) (gate opened : Word) (s : State) : Out :=
  opRow 0x59 h [gate, opened] s (fun s => s.opGateSet gate opened)

/-- LOG_READ (R505). -/
def execLogRead (h : Hdr) (first count : Word) (s : State) : Out :=
  opRow 0x60 h [first, count] s (fun s => s.opLogRead first count)

/-- LOG_ACK (R506). -/
def execLogAck (h : Hdr) (last : Word) (s : State) : Out := opRow 0x61 h [last] s (fun s => s.opLogAck last)

/-- PAGE_RETIRE (R415). -/
def execPageRetire (h : Hdr) (ch hi lo : Word) (s : State) : Out :=
  opRow 0x62 h [ch, hi, lo] s (fun s => s.opPageRetire ch hi lo)

/-- KEY_LOAD (R420). -/
def execKeyLoad (h : Hdr) (index : Word) (wrapped : List Word) (s : State) : Out :=
  opRow 0x70 h (index :: wrapped) s (fun s => s.opKeyLoad index wrapped)

/-- Every slot overwritten: DONE, and INTEGRITY STOP where a slot was in use (R423, R434). -/
def zeroAllKeys (s : State) : State :=
  let used := s.anyKeyInUse
  let s1 := s.keysZero.finish 0 0 []
  if used then s1.integrityStop 3 0xFF 0x0006 0 else s1

/-- KEY_ZERO of one slot (R423); the index that names all slots is KEY_ZERO_ALL's packet. -/
def execKeyZero (h : Hdr) (index : Word) (s : State) : Out :=
  cmdRow 0x71 h [index] s (fun s => if index = 0xFFFFFFFF then zeroAllKeys s else settleOp (s.opKeyZero index))

/-- KEY_ZERO of all slots (R423). -/
def execKeyZeroAll (h : Hdr) (s : State) : Out := cmdRow 0x71 h [0xFFFFFFFF] s zeroAllKeys

/-- DEBUG_AUTH phase 0 (R511). -/
def execDebugAuthChallenge (h : Hdr) (level : Word) (s : State) : Out :=
  opRow 0x78 h [0, level] s (fun s => s.opChallenge level)

/-- DEBUG_AUTH phase 1 (R512). -/
def execDebugAuthResponse (h : Hdr) (mac : List Word) (s : State) : Out :=
  opRow 0x78 h (1 :: mac) s (fun s => s.opResponse mac)

/-- DEBUG_AUTH phase 2 (R511). -/
def execDebugAuthLower (h : Hdr) (level : Word) (s : State) : Out :=
  opRow 0x78 h [2, level] s (fun s => s.opLower level)

/-- WATCHDOG_KICK: the full period again (R63). -/
def execWatchdogKick (h : Hdr) (s : State) : Out :=
  opRow 0x7E h [] s (fun s =>
    opDone { s with gh := { s.gh with wdog := s.rf 0x10010 15 0 * 1000000000 } } [])

/-- RESET type 0 (R69). -/
def execResetCommandPort (h : Hdr) (s : State) : Out := cmdRow 0x7F h [0] s commandPortReset

/-- RESET type 1: 10 µs after acceptance the device resets; no reply is sent (R69, R442). -/
def execResetDevice (h : Hdr) (bootsel : Nat) (s : State) : Out :=
  cmdRow 0x7F h [1] s (fun s =>
    let at_ := match s.gh.running with | some r => r.acceptedAt | none => s.now
    (s.advance (5000 - (s.now - at_) / 2000)).deviceReset bootsel)

end Sys2Proof.Machine
end

