-- ==== Sys2Proof/Machine/Boot.lean ====
section
/-!
DEFINITION. IMAGE_COMMIT, the flash boot, the autostart, raw flash commands, power-good and resets (R440-R442, R452-R457,
R462).
-/
namespace Sys2Proof.Machine

open Sys2Proof State

namespace State

/-! ### Preload (R453) -/

/-- One preload write, as PARAM_WRITE would make it at auth level 1. -/
def preloadWrite (s : State) (addr v : Word) : WRes :=
  let a := addr.toNat
  let c := s.paramCheck true [a]
  if c ≠ 0 then (s, c)
  else if !paramAuthOk 1 true [a] then (s, 0x06)
  else match placeOf a with
    | none => (s, 0x08)
    | some (p, o) =>
      let e := s.accessError 0x200 p o
      if e ≠ 0 then (s, e)
      else match p with
        | .window _ => (s, 0x07)
        | _ => s.writeWord a v

/-- The pairs in order, from pair k; the rest is not written after a refusal, which names its pair. -/
def preloadFrom : Nat → Nat → List Word → State → WRes
  | 0, _, _, s => (s, 0)
  | n + 1, k, a :: v :: rest, s =>
    let (s1, r) := s.preloadWrite a v
    if r ≠ 0 then
      (({ s1 with boot := { s1.boot with preloadIdx := k } } : State).setRb 0x18000 17 true, r)
    else preloadFrom n (k + 1) rest s1
  | _, _, _, s => (s, 0)

/-- The PRELOAD section of a base image is written. -/
def preload (s : State) (i : Image) : WRes :=
  let d := (i.data 5 0).getD []
  preloadFrom (d.length / 2) 0 d s

/-! ### IMAGE_COMMIT (R452-R456) -/

/-- SYSREF of a header: 0 XA, 1 XB. -/
def sysRef (h : List Word) : Nat := fld (h.getD 7 0) 1 1

/-- The crystal inputs take the header's words. -/
def headerClocks (s : State) (h : List Word) : State := (s.xtalFromHeader 0 (h.getD 8 0)).xtalFromHeader 1 (h.getD 9 0)

/-- The clocks of a base image that the host has loaded (R456). -/
def commitClocks (s : State) (i : Image) : State :=
  if s.clk.spllStarted then s
  else
    let s1 := s.headerClocks i.header
    { s1 with clk := { s1.clk with startDue := some (sysRef i.header, s1.now + 5 * 10 ^ 11) } }

/-- IMAGE_COMMIT. -/
def opImageCommit (s : State) : OpRes :=
  let c := s.loadCheck
  if c ≠ 0 then opRefuse s c
  else match s.boot.load with
    | none => opRefuse s 0x02
    | some l =>
      match s.imageCheck l.bytes l.flash l.addr with
      | (_, some i) =>
        if l.kind = 0 then
          let (s1, r) := ((s.baseCommit i).commitClocks i).preload i
          let data := [i.id, w32 s1.boot.ovlCount]
          if r ≠ 0 then opFault s1 r data else opDone s1 data
        else
          let s1 := s.ovlCommit l.ovl i
          opDone s1 [i.id, w32 s1.boot.ovlCount]
      | (r, none) => opRefuse s r

/-! ### Flash boot (R455, R457) -/

/-- The cause code of a refused check. -/
def failCause (r : Byte) : Nat := if r = 0x25 then 3 else if r = 0x24 then 4 else 5

/-- A copy fails: its cause and the log entry. -/
def bootFail (s : State) (copy cause : Nat) : State :=
  ({ s with boot := if copy = 0 then { s.boot with priFail := cause } else { s.boot with fbFail := cause } } : State).logEvent
    0x4A 0x000C (w32 cause) 0 copy

/-- What an attempt on a copy ended in. -/
inductive Attempt where
  | next | stop | passed
deriving DecidableEq, Repr

/-- The clocks start on the header's reference, judged stable or not within 500 ms. -/
def bootClocks (s : State) (h : List Word) (refStable : Bool) : Bool × State :=
  if s.clk.spllStarted then (true, s)
  else
    let x := sysRef h
    let s1 := s.headerClocks h
    if refStable ∧ s1.xEn x then
      let n := (Config.freeWord s1.freeCtr).toNat
      (true, ((s1.fresh.inputStable x n).spllStart x).pllLocks 15)
    else (false, s1)

/-- One copy of the flash boot. -/
def bootTry (s0 : State) (copy : Nat) (flash : List Byte) (refStable : Bool) : Attempt × State :=
  let addr : Word := if copy = 0 then 0 else 0x10000000
  let s := { s0.baseBegin with boot := { s0.baseBegin.boot with load := none } }
  let h := imageHeader flash
  let len := (h.getD 5 0).toNat + 512
  let bytes := flash.take len
  if !partOk h then (.next, s.bootFail copy 3)
  else if !headerOk h bytes.length ∨ fld (h.getD 1 0) 23 16 ≠ 0 then (.next, s.bootFail copy 2)
  else
    let (ok, s1) := s.bootClocks h refStable
    if !ok then (.stop, s1.bootFail copy 1)
    else
      let s2 := State.setReg { s1.arrive len [] bytes with boot := { (s1.arrive len [] bytes).boot with bus := headerBus h } } 0x18008 (w32 len)
      match s2.imageCheck bytes true addr with
      | (r, none) => (.next, s2.bootFail copy (failCause r))
      | (_, some i) =>
        let s3 := s2.baseCommit i
        let s4 := { s3 with boot := { s3.boot with booting := false } }
        let s5 := (s4.preload i).1
        let auto := decide (s5.boot.bootsel = 2) && bit (h.getD 7 0) 0
        (.passed, { s5 with boot := { s5.boot with autostartDue := if auto then some (s5.now + 10 ^ 10) else none } })

/-- The flash boot: the primary, then the fallback. -/
def flashBoot (s : State) (primary fallback : List Byte) (refStable : Bool) : State :=
  let done := fun (s : State) => ({ s with boot := { s.boot with booting := false } } : State)
  match s.bootTry 0 primary refStable with
  | (.next, s1) => done (s1.bootTry 1 fallback refStable).2
  | (_, s1) => done s1

/-- The autostart (R457). -/
def autostart (s : State) : State :=
  match s.boot.autostartDue with
  | none => s
  | some due =>
    let off := ({ s with boot := { s.boot with autostartDue := none } } : State)
    if s.boot.started ∨ s.boot.releasing then off
    else if s.boot.base.isSome ∧ s.linePllsLocked ∧ s.now ≤ due then
      ({ off with boot := { off.boot with autostarted := true } } : State).opStart.1
    else if due ≤ s.now then off.bootFail (if s.boot.fallback then 1 else 0) 6
    else s

/-! ### Raw flash commands (R462) -/

/-- Bytes read by a raw command lie in BF_BUF, the first in [31:24] of BF_BUF0; later bytes of the last word stay. -/
def bufTake (s : State) (data : List Byte) : State :=
  (List.range ((data.length + 3) / 4)).foldl (fun (s : State) k =>
    let a := 0x18100 + 4 * k
    let got := (data.drop (4 * k)).take 4
    s.setReg a (beWord (got ++ (wordBytes (s.reg a)).drop got.length))) s

/-- A raw command ends. -/
def rawEnd (s : State) (data : List Byte) : State :=
  let s1 := ({ s with boot := { s.boot with rawBusy := false, rawRead := none } } : State)
  let s2 := if s.boot.rawRead.isSome then s1.bufTake data else s1
  s2.setReg 0x18040 (resDone (s2.reg 0x18040) false)

/-- Power-up: RESET_N's effect, the stop record and the boundary-scan port too at their Reset values (R438, R440). -/
def powerUp (s : State) (bootsel : Nat) : State :=
  State.deviceReset { s with
    regs := [aStop, aStop + 4, aStop + 8, aStop + 12].foldl (fun t a => Table.set resetWord t a (resetWord a)) s.regs
    jtag := {} } bootsel

end State

/-! ### Rows -/

/-- IMAGE_COMMIT (R452). -/
def execImageCommit (h : Hdr) (s : State) : Out := opRow 0x22 h [] s opImageCommit

/-- FLASH_BOOT (R455). -/
def execFlashBoot (primary fallback : List Byte) (refStable : Bool) (dt : Nat) (s : State) : Out :=
  event dt s (fun s => if s.gh.ready ∧ s.bfRstN ∧ s.boot.booting ∧ s.mode = .boot then s.flashBoot primary fallback refStable else s)

/-- AUTOSTART (R457). -/
def execAutostart (dt : Nat) (s : State) : Out :=
  event dt s (fun s => if s.mode = .boot then s.autostart else s)

/-- RAW_COMMAND_END (R462): a read command has as many bytes as COUNT asked for. -/
def execRawCommandEnd (data : List Byte) (dt : Nat) (s : State) : Out :=
  event dt s (fun s =>
    if s.boot.rawBusy ∧ (match s.boot.rawRead with | some n => decide (data.length = n) | none => true) = true then s.rawEnd data
    else s)

/-- POWER_GOOD (R440): RESET_N rises with all rails good. -/
def execPowerGood (bootsel : Nat) (s : State) : Out := .next (s.powerUp bootsel)

/-- RESET_N (R442): below 1 µs ignored, from 10 µs always a reset; between them the manual leaves it open. -/
def execResetN (lowNs bootsel dt : Nat) (s : State) : Out :=
  let s1 := s.advance dt
  if s1.pwr.held ∨ lowNs < 1000 then .next s1
  else if 10000 ≤ lowNs then .next (s1.deviceReset bootsel)
  else
    let s2 := s1.fresh
    .next (if Config.freeBit s1.freeCtr then s2.deviceReset bootsel else s2)

/-- SUPPLY_UNDERVOLTAGE (R441): VAUX or VCORE out of range for over 1 µs holds the device in reset. -/
def execSupplyUndervoltage (lowNs dt : Nat) (s : State) : Out :=
  let s1 := s.advance dt
  if lowNs ≤ 1000 then .next s1
  else
    let s2 := s1.deviceReset 0
    .next { s2 with pwr := { s2.pwr with held := true } }

/-- UNDERVOLTAGE_RELEASE (R441): the rails are back with RESET_N high; the effect is RESET_N's. -/
def execUndervoltageRelease (bootsel dt : Nat) (s : State) : Out :=
  let s1 := s.advance dt
  .next (if s1.pwr.held then s1.deviceReset bootsel else s1)

end Sys2Proof.Machine
end

