-- ==== Sys2Proof/Machine/EngineRemote.lean ====
section
/-!
DEFINITION. The dispatcher's events that reach beyond it: the decision of posts, DSP_POST writes among them, and the staging of
contexts from other pavilions (R379-R381, R386).
-/
namespace Sys2Proof.Machine

open Sys2Proof State

namespace State

/-- The oldest DSP_POST write held is decided, once no post goes before it and this clock has room, and answered (R379-R381). -/
def decideHeld (s : State) : State :=
  match s.dsp.held with
  | [] => s
  | r :: rest =>
    if s.postRoom = 0 then s
    else
      let (ok, s1) := ({ s with dsp := { s.dsp with held := rest } } : State).noteDecided.decidePost r.data.toNat 0x60000000
      s1.windowReply 0 r (if ok then 0 else 0x33) 0

/-- The engine whose pavilion reads a save area over the Ridgeway (R386). -/
def readsRemote (s : State) (e t : Nat) : Bool := (s.thread t).saved && decide (s.thCtxEng t / 8 ≠ e / 8)

/-- The save area of thread t as the second bank of engine e takes it. What a word that fails its code gives is the word as
stored (DESIGN CHOICE, log entry 79). -/
def contextRead (s : State) (e t : Nat) (c : Ctx) : State :=
  let saved := (s.thread t).saved
  let c' := if saved then s.loadCtx (s.thCtxEng t) (s.thSlot t) else c
  let s1 := if saved then s.contextMeet (s.thCtxEng t) (s.thSlot t) else s
  (s1.modEng e (fun x => { x with staged := some (t, c'), stagedReady := true })).idleTake e

end State

/-- POST_DECISION: the next waiting post is decided (R379-R381). -/
def execPostDecision (dt : Nat) (s : State) : Out :=
  event dt s (fun s => if s.dsp.intake.isEmpty then s.decideHeld else s.decideNext)

/-- CONTEXT_STAGED: the second bank holds its context, read from the save area for a saved thread (R366, R386). One in another
pavilion is read over the Ridgeway at priority 3, as one READ that its statistics count; where the network or the target refuses
it the reading counts an error and the bank stays empty (DESIGN CHOICE, log entry 81). -/
def execContextStaged (e dt : Nat) (s : State) : Out :=
  unitEvent (decide (e < 64)) dt s (fun s =>
    match (s.eng e).staged, (s.eng e).stagedReady with
    | some (t, c), false =>
      if s.readsRemote e t then
        let src := pavilionPort (e / 8)
        let s1 := s.hubSent src (pavilionPort (s.thCtxEng t / 8))
        if s.accessError src (.scratchpad (s.thCtxEng t)) 0 = 0 then s1.contextRead e t c else s1.hubErr src
      else s.contextRead e t c
    | _, _ => s)

end Sys2Proof.Machine
end

