-- ==== Sys2Proof/Machine/Rows.lean ====
section
/-!
DEFINITION. The rows of register accesses: each is the write or read, by the accessor named, of the register the row
stands for; an enabling row sets the enable bit of the value, a disabling row clears it.
-/
namespace Sys2Proof.Machine

open Sys2Proof State

/-! ### Writes -/

/-- REGISTER_WRITE: a write by access codes (R81, R82). -/
def execRegisterWrite (who : Accessor) (addr value : Word) (s : State) : Out :=
  regWriteRow true who addr.toNat value s

/-- GH_WDOG_PERIOD_WRITE: the device watchdog (R62). -/
def execGhWdogPeriodWrite (who : Accessor) (value : Word) (s : State) : Out :=
  regWriteRow true who 0x10010 value s

/-- TIMEBASE_ENABLE: TB_CTRL.EN set (R119). -/
def execTimebaseEnable (who : Accessor) (value : Word) (s : State) : Out :=
  regWriteRow true who 0x30000 (value ||| 1) s

/-- TIMEBASE_DISABLE: TB_CTRL.EN cleared (R102). -/
def execTimebaseDisable (who : Accessor) (value : Word) (s : State) : Out :=
  regWriteRow true who 0x30000 (value &&& 0xFFFFFFFE) s

/-- REFERENCE_SELECTION: TB_CTRL.REF_SEL written (R108). -/
def execReferenceSelection (who : Accessor) (value : Word) (s : State) : Out :=
  regWriteRow true who 0x30000 value s

/-- SF_ARM: TB_CTRL.SF_ARM set (R118). -/
def execSfArm (who : Accessor) (value : Word) (s : State) : Out :=
  regWriteRow true who 0x30000 (value ||| 0x8000) s

/-- CRYSTAL_INPUT_ENABLE: CK_XA_CFG or CK_XB_CFG.EN set (R324). -/
def execCrystalInputEnable (who : Accessor) (x : Nat) (value : Word) (s : State) : Out :=
  regWriteRow (decide (x < 2)) who (aX x) (value ||| 0x80000000) s

/-- CRYSTAL_INPUT_DISABLE: the EN bit cleared (R324). -/
def execCrystalInputDisable (who : Accessor) (x : Nat) (value : Word) (s : State) : Out :=
  regWriteRow (decide (x < 2)) who (aX x) (value &&& 0x7FFFFFFF) s

/-- PLL_ENABLE: CK_PLL_CTRL.EN set (R330, R456). -/
def execPllEnable (who : Accessor) (p : Nat) (value : Word) (s : State) : Out :=
  regWriteRow (decide (p < 16)) who (aPll p) (value ||| 1) s

/-- PLL_DISABLE: CK_PLL_CTRL.EN cleared (R331). -/
def execPllDisable (who : Accessor) (p : Nat) (value : Word) (s : State) : Out :=
  regWriteRow (decide (p < 16)) who (aPll p) (value &&& 0xFFFFFFFE) s

/-- SSC_UPDATE: CK_PLL_SSC written (R335). -/
def execSscUpdate (who : Accessor) (p : Nat) (value : Word) (s : State) : Out :=
  regWriteRow (decide (p < 16)) who (aPll p + 0x14) value s

/-- CH_CTRL_ENABLE: CH_CTRL.EN set (R202). -/
def execChCtrlEnable (who : Accessor) (c : Nat) (value : Word) (s : State) : Out :=
  regWriteRow (decide (c < 144)) who (aCh c) (value ||| 1) s

/-- CHANNEL_DISABLE: CH_CTRL.EN cleared (R201). -/
def execChannelDisable (who : Accessor) (c : Nat) (value : Word) (s : State) : Out :=
  regWriteRow (decide (c < 144)) who (aCh c) (value &&& 0xFFFFFFFE) s

/-- CH_LQ_WIN_WRITE: a word through a launch queue window (R199). -/
def execChLqWinWrite (who : Accessor) (c q : Nat) (value : Word) (s : State) : Out :=
  regWriteRow (decide (c < 144 ∧ q < 8)) who (aCh c + 0xC00 + 0x40 * q) value s

/-- CIS_WR_DATA_WRITE: four bytes through the write window (R210). -/
def execCisWrDataWrite (who : Accessor) (i : Nat) (value : Word) (s : State) : Out :=
  regWriteRow (decide (i < 272)) who (aCis i + 0x20) value s

/-- CIS_WR_END_WRITE: the end of the frame being written (R210). -/
def execCisWrEndWrite (who : Accessor) (i : Nat) (value : Word) (s : State) : Out :=
  regWriteRow (decide (i < 272)) who (aCis i + 0x24) value s

/-- DROP: CIS_CMD.DROP set (R216). -/
def execDrop (who : Accessor) (i : Nat) (s : State) : Out :=
  regWriteRow (decide (i < 272)) who (aCis i + 0x10) 1 s

/-- FLUSH: CIS_CMD.FLUSH set (R217). -/
def execFlush (who : Accessor) (i : Nat) (s : State) : Out :=
  regWriteRow (decide (i < 272)) who (aCis i + 0x10) 2 s

/-- CISTERN_ENABLE: CIS_CTRL.EN set (R219). -/
def execCisternEnable (who : Accessor) (i : Nat) (value : Word) (s : State) : Out :=
  regWriteRow (decide (i < 272)) who (aCis i) (value ||| 1) s

/-- QUEUE_ENABLE: QD_CFG.EN set (R236). -/
def execQueueEnable (who : Accessor) (q : Nat) (value : Word) (s : State) : Out :=
  regWriteRow (decide (q < 65536)) who (aQueue q) (value ||| 0x80000000) s

/-- QUEUE_DISABLE: QD_CFG.EN cleared (R237). -/
def execQueueDisable (who : Accessor) (q : Nat) (value : Word) (s : State) : Out :=
  regWriteRow (decide (q < 65536)) who (aQueue q) (value &&& 0x7FFFFFFF) s

/-- ORCHARD_ENABLE: ORC_CTRL.EN set (R244). -/
def execOrchardEnable (who : Accessor) (r : Nat) (value : Word) (s : State) : Out :=
  regWriteRow (decide (r < 4)) who (aOrc r) (value ||| 1) s

/-- ORCHARD_DISABLE: ORC_CTRL.EN cleared (R254). -/
def execOrchardDisable (who : Accessor) (r : Nat) (value : Word) (s : State) : Out :=
  regWriteRow (decide (r < 4)) who (aOrc r) (value &&& 0xFFFFFFFE) s

/-- ORC_EQ_HDR_WRITE: the admission decision of a window (R247). -/
def execOrcEqHdrWrite (who : Accessor) (r w : Nat) (value : Word) (s : State) : Out :=
  regWriteRow (decide (r < 4 ∧ w < 16)) who (aWin r w) value s

/-- ORC_EQ_DATA_WRITE: four bytes of the open frame (R247). -/
def execOrcEqDataWrite (who : Accessor) (r w : Nat) (value : Word) (s : State) : Out :=
  regWriteRow (decide (r < 4 ∧ w < 16)) who (aWin r w + 4) value s

/-- THREAD_ENABLE: TH_CFG.EN set (R376). -/
def execThreadEnable (who : Accessor) (t : Nat) (value : Word) (s : State) : Out :=
  regWriteRow (decide (t < 8192)) who (aThread t) (value ||| 0x80000000) s

/-- THREAD_DISABLE: TH_CFG.EN cleared (R377). -/
def execThreadDisable (who : Accessor) (t : Nat) (value : Word) (s : State) : Out :=
  regWriteRow (decide (t < 8192)) who (aThread t) (value &&& 0x7FFFFFFF) s

/-- DISPATCHER_ENABLE: DSP_CTRL.EN set (R393). -/
def execDispatcherEnable (who : Accessor) (value : Word) (s : State) : Out :=
  regWriteRow true who 0xC00000 (value ||| 1) s

/-- DISPATCHER_DISABLE: DSP_CTRL.EN cleared (R393). -/
def execDispatcherDisable (who : Accessor) (value : Word) (s : State) : Out :=
  regWriteRow true who 0xC00000 (value &&& 0xFFFFFFFE) s

/-- DSP_POST_WRITE: a post by register (R381). -/
def execDspPostWrite (who : Accessor) (value : Word) (s : State) : Out :=
  regWriteRow true who 0xC00010 value s

/-- SNAPSHOT_TAKE: DSP_SNAP_CTRL.TAKE set (R395). -/
def execSnapshotTake (who : Accessor) (value : Word) (s : State) : Out :=
  regWriteRow true who 0xC00014 (value ||| 1) s

/-- ACCEPT_WRITE: PV_DSP_CFG.ACCEPT written (R391). -/
def execAcceptWrite (who : Accessor) (p : Nat) (value : Word) (s : State) : Out :=
  regWriteRow (decide (p < 8)) who (aPav p) value s

/-- ENG_IRQ_SET_WRITE: edges on interrupt inputs (R368). -/
def execEngIrqSetWrite (who : Accessor) (e : Nat) (value : Word) (s : State) : Out :=
  regWriteRow (decide (e < 64)) who (aEng e + 0x28) value s

/-- DRAM_CHANNEL_ENABLE: DR_CTRL.EN set (R407). -/
def execDramChannelEnable (who : Accessor) (d : Nat) (value : Word) (s : State) : Out :=
  regWriteRow (decide (d < 16)) who (aDram d) (value ||| 1) s

/-- DRAM_CHANNEL_DISABLE: DR_CTRL.EN cleared (R414). -/
def execDramChannelDisable (who : Accessor) (d : Nat) (value : Word) (s : State) : Out :=
  regWriteRow (decide (d < 16)) who (aDram d) (value &&& 0xFFFFFFFE) s

/-- TRAINING_START: DR_TRAIN_CTRL.START set (R408). -/
def execTrainingStart (who : Accessor) (d : Nat) (s : State) : Out :=
  regWriteRow (decide (d < 16)) who (aDram d + 0x40) 1 s

/-- MONITOR_ENABLE: MON_CTRL.EN set (R548). -/
def execMonitorEnable (who : Accessor) (value : Word) (s : State) : Out :=
  regWriteRow true who 0xF00000 (value ||| 1) s

/-- TRACE_ENABLE: BLV_TRC_CTRL.EN set (R538). -/
def execTraceEnable (who : Accessor) (value : Word) (s : State) : Out :=
  regWriteRow true who 0xE80000 (value ||| 1) s

/-- PEEK: BLV_PEEK_CTRL.GO with CONSUME 0 (R530). -/
def execPeek (who : Accessor) (s : State) : Out :=
  regWriteRow true who 0xE80044 1 s

/-- CONSUMING_READ: BLV_PEEK_CTRL.GO with CONSUME 1 (R531). -/
def execConsumingRead (who : Accessor) (s : State) : Out :=
  regWriteRow true who 0xE80044 3 s

/-- BLV_HALT: halt requests of engines (R532). -/
def execBlvHalt (who : Accessor) (w : Nat) (value : Word) (s : State) : Out :=
  regWriteRow (decide (w < 2)) who (0xE80108 + 4 * w) value s

/-- BLV_STEP: step requests (R535). -/
def execBlvStep (who : Accessor) (w : Nat) (value : Word) (s : State) : Out :=
  regWriteRow (decide (w < 2)) who (0xE80110 + 4 * w) value s

/-- BLV_RESUME: resume requests (R532). -/
def execBlvResume (who : Accessor) (w : Nat) (value : Word) (s : State) : Out :=
  regWriteRow (decide (w < 2)) who (0xE80118 + 4 * w) value s

/-- BLV_ATTACH_WRITE: engine sessions (R532). -/
def execBlvAttachWrite (who : Accessor) (w : Nat) (value : Word) (s : State) : Out :=
  regWriteRow (decide (w < 2)) who (0xE80100 + 4 * w) value s

/-- BLV_STIM_WRITE: the stimulus hard port (R537). -/
def execBlvStimWrite (who : Accessor) (value : Word) (s : State) : Out :=
  regWriteRow true who 0xE80060 value s

/-- BF_CMD_WRITE: a raw flash command (R462). -/
def execBfCmdWrite (who : Accessor) (value : Word) (s : State) : Out :=
  regWriteRow true who 0x18020 value s

/-- LOG_INJECT_WRITE: a test entry (R508). -/
def execLogInjectWrite (who : Accessor) (value : Word) (s : State) : Out :=
  regWriteRow true who 0xD0000C value s

/-- RW_STAT_CLEAR: RW_STAT_CTRL.CLR of a ridge's gateway, or of the hub as r = 4 (R275). -/
def execRwStatClear (who : Accessor) (r : Nat) (s : State) : Out :=
  regWriteRow (decide (r < 5)) who (if r = 4 then 0x500024 else aGw r + 0x24) 1 s

/-- COMPARE_RUN: DR_CMP_CTRL.GO with the error words found (R410). -/
def execCompareRun (who : Accessor) (d : Nat) (value : Word) (errs : List Word) (s : State) : Out :=
  accessRow (decide (d < 16)) who true (aDram d + 0x140) s (fun s => (s.drCompare d (value ||| 1) errs).1)

/-- DR_WIN_READ: one line as stored, with what the code says of it (R418). -/
def execDrWinRead (who : Accessor) (d : Nat) (got : Upset) (s : State) : Out :=
  accessRow (decide (d < 16)) who true (aDram d + 0x404) s (fun s => (s.drWinRead d got).1)

/-- DR_WIN_WRITE: DR_WIN_D0 to D15 to one line (R418). -/
def execDrWinWrite (who : Accessor) (d : Nat) (s : State) : Out :=
  accessRow (decide (d < 16)) who true (aDram d + 0x404) s (fun s => (s.drWinWrite d).1)

/-! ### Reads -/

/-- RC_READ: a counter and its clearing (R84). -/
def execRcRead (who : Accessor) (addr : Word) (s : State) : Out :=
  regReadRow true who addr.toNat s

/-- LATCHED_GROUP_READ: the lowest word copies the group (R86). -/
def execLatchedGroupRead (who : Accessor) (addr : Word) (s : State) : Out :=
  regReadRow true who addr.toNat s

/-- CIS_RD_TAG_READ: the head word of a Cistern (R210). -/
def execCisRdTagRead (who : Accessor) (i : Nat) (s : State) : Out :=
  regReadRow (decide (i < 272)) who (aCis i + 0x40) s

/-- ORC_DQ_TAG_READ: up to four bytes of the selected queue (R248). -/
def execOrcDqTagRead (who : Accessor) (r w : Nat) (s : State) : Out :=
  regReadRow (decide (r < 4 ∧ w < 16)) who (aWin r w + 0x10) s

/-- STAMP_RECORD_READ: the oldest record of a stamp pin (0-63) or channel (64-207) (R120). -/
def execStampRecordRead (who : Accessor) (src : Nat) (s : State) : Out :=
  regReadRow (decide (src < 208)) who (if src < 64 then 0x31000 + 0x20 * src else aCh (src - 64) + 0x810) s

/-- CN_EVENT_READ: the oldest Cairn event record (R137). -/
def execCnEventRead (who : Accessor) (s : State) : Out :=
  regReadRow true who 0x30070 s

end Sys2Proof.Machine
end

