-- ==== Sys2Proof/Machine/Dispatch.lean ====
section
/-!
DEFINITION. The meaning of each command: one arm per constructor, one call of its meaning.
-/
namespace Sys2Proof.Machine

/-- The effect of a command on everything but the queue. -/
def exec (i : Instr) (s : State) : Host.Outcome State Fault Refusal :=
  match i with
  | .add e rd ra rb => Sys2Proof.Machine.execAdd e rd ra rb s
  | .sub e rd ra rb => Sys2Proof.Machine.execSub e rd ra rb s
  | .adds e rd ra rb => Sys2Proof.Machine.execAdds e rd ra rb s
  | .subs e rd ra rb => Sys2Proof.Machine.execSubs e rd ra rb s
  | .addi e rd ra imm => Sys2Proof.Machine.execAddi e rd ra imm s
  | .slti e rd ra imm => Sys2Proof.Machine.execSlti e rd ra imm s
  | .slt e rd ra rb => Sys2Proof.Machine.execSlt e rd ra rb s
  | .sltu e rd ra rb => Sys2Proof.Machine.execSltu e rd ra rb s
  | .min e rd ra rb => Sys2Proof.Machine.execMin e rd ra rb s
  | .max e rd ra rb => Sys2Proof.Machine.execMax e rd ra rb s
  | .and e rd ra rb => Sys2Proof.Machine.execAnd e rd ra rb s
  | .or e rd ra rb => Sys2Proof.Machine.execOr e rd ra rb s
  | .xor e rd ra rb => Sys2Proof.Machine.execXor e rd ra rb s
  | .andi e rd ra imm => Sys2Proof.Machine.execAndi e rd ra imm s
  | .ori e rd ra imm => Sys2Proof.Machine.execOri e rd ra imm s
  | .xori e rd ra imm => Sys2Proof.Machine.execXori e rd ra imm s
  | .lui e rd imm => Sys2Proof.Machine.execLui e rd imm s
  | .sll e rd ra rb => Sys2Proof.Machine.execSll e rd ra rb s
  | .srl e rd ra rb => Sys2Proof.Machine.execSrl e rd ra rb s
  | .sra e rd ra rb => Sys2Proof.Machine.execSra e rd ra rb s
  | .slli e rd ra rb => Sys2Proof.Machine.execSlli e rd ra rb s
  | .srli e rd ra rb => Sys2Proof.Machine.execSrli e rd ra rb s
  | .srai e rd ra rb => Sys2Proof.Machine.execSrai e rd ra rb s
  | .cls e rd ra => Sys2Proof.Machine.execCls e rd ra s
  | .bexp e rd ra => Sys2Proof.Machine.execBexp e rd ra s
  | .mul16 e rd ra rb => Sys2Proof.Machine.execMul16 e rd ra rb s
  | .mul16u e rd ra rb => Sys2Proof.Machine.execMul16u e rd ra rb s
  | .ldb e rd ra imm => Sys2Proof.Machine.execLdb e rd ra imm s
  | .ldbu e rd ra imm => Sys2Proof.Machine.execLdbu e rd ra imm s
  | .ldh e rd ra imm => Sys2Proof.Machine.execLdh e rd ra imm s
  | .ldhu e rd ra imm => Sys2Proof.Machine.execLdhu e rd ra imm s
  | .ldw e rd ra imm => Sys2Proof.Machine.execLdw e rd ra imm s
  | .ldd e rd ra imm => Sys2Proof.Machine.execLdd e rd ra imm s
  | .stb e rd ra imm => Sys2Proof.Machine.execStb e rd ra imm s
  | .sth e rd ra imm => Sys2Proof.Machine.execSth e rd ra imm s
  | .stw e rd ra imm => Sys2Proof.Machine.execStw e rd ra imm s
  | .std e rd ra imm => Sys2Proof.Machine.execStd e rd ra imm s
  | .stws e rd ra imm => Sys2Proof.Machine.execStws e rd ra imm s
  | .ll e rd ra imm => Sys2Proof.Machine.execLl e rd ra imm s
  | .sc e rd ra imm => Sys2Proof.Machine.execSc e rd ra imm s
  | .beq e ra rb off => Sys2Proof.Machine.execBeq e ra rb off s
  | .bne e ra rb off => Sys2Proof.Machine.execBne e ra rb off s
  | .blt e ra rb off => Sys2Proof.Machine.execBlt e ra rb off s
  | .bge e ra rb off => Sys2Proof.Machine.execBge e ra rb off s
  | .bltu e ra rb off => Sys2Proof.Machine.execBltu e ra rb off s
  | .bgeu e ra rb off => Sys2Proof.Machine.execBgeu e ra rb off s
  | .j e off => Sys2Proof.Machine.execJ e off s
  | .jal e off => Sys2Proof.Machine.execJal e off s
  | .jr e ra => Sys2Proof.Machine.execJr e ra s
  | .jalr e rd ra => Sys2Proof.Machine.execJalr e rd ra s
  | .mac e a x y su => Sys2Proof.Machine.execMac e a x y su s
  | .msu e a x y su => Sys2Proof.Machine.execMsu e a x y su s
  | .mpy e a x y su => Sys2Proof.Machine.execMpy e a x y su s
  | .ftap e a su => Sys2Proof.Machine.execFtap e a su s
  | .ftapn e a su => Sys2Proof.Machine.execFtapn e a su s
  | .aclr e a => Sys2Proof.Machine.execAclr e a s
  | .afrom e a x => Sys2Proof.Machine.execAfrom e a x s
  | .aadd e a => Sys2Proof.Machine.execAadd e a s
  | .ash e a sh => Sys2Proof.Machine.execAsh e a sh s
  | .aexp e a x => Sys2Proof.Machine.execAexp e a x s
  | .amov e a x sh hi => Sys2Proof.Machine.execAmov e a x sh hi s
  | .rpt e useReg len count => Sys2Proof.Machine.execRpt e useReg len count s
  | .mfc e rd n => Sys2Proof.Machine.execMfc e rd n s
  | .mtc e ra n => Sys2Proof.Machine.execMtc e ra n s
  | .reti e => Sys2Proof.Machine.execReti e s
  | .texit e => Sys2Proof.Machine.execTexit e s
  | .yield e => Sys2Proof.Machine.execYield e s
  | .post e rd ra => Sys2Proof.Machine.execPost e rd ra s
  | .wdk e => Sys2Proof.Machine.execWdk e s
  | .pub e flags => Sys2Proof.Machine.execPub e flags s
  | .fence e => Sys2Proof.Machine.execFence e s
  | .brk e => Sys2Proof.Machine.execBrk e s
  | .writePacket bytes early => Sys2Proof.Machine.execWritePacket bytes early s
  | .readReply early words => Sys2Proof.Machine.execReadReply early words s
  | .readStatus early => Sys2Proof.Machine.execReadStatus early s
  | .badTransactionCode code => Sys2Proof.Machine.execBadTransactionCode code s
  | .watchdogExpiry dt => Sys2Proof.Machine.execWatchdogExpiry dt s
  | .ping h words => Sys2Proof.Machine.execPing h words s
  | .identify h => Sys2Proof.Machine.execIdentify h s
  | .status h => Sys2Proof.Machine.execStatus h s
  | .paramRead h addr => Sys2Proof.Machine.execParamRead h addr s
  | .paramWrite h addr value => Sys2Proof.Machine.execParamWrite h addr value s
  | .paramModify h addr mask value => Sys2Proof.Machine.execParamModify h addr mask value s
  | .paramReadBlock h addr count => Sys2Proof.Machine.execParamReadBlock h addr count s
  | .paramWriteBlock h addr values => Sys2Proof.Machine.execParamWriteBlock h addr values s
  | .imageBegin h kind ovl len src flash => Sys2Proof.Machine.execImageBegin h kind ovl len src flash s
  | .imageData h offset words => Sys2Proof.Machine.execImageData h offset words s
  | .imageCommit h => Sys2Proof.Machine.execImageCommit h s
  | .overlayStage h ovl => Sys2Proof.Machine.execOverlayStage h ovl s
  | .overlayApply h ovl cairn => Sys2Proof.Machine.execOverlayApply h ovl cairn s
  | .modeEnter h mode cairn => Sys2Proof.Machine.execModeEnter h mode cairn s
  | .start h => Sys2Proof.Machine.execStart h s
  | .channelEnable h ch step group => Sys2Proof.Machine.execChannelEnable h ch step group s
  | .channelRetire h ch spare => Sys2Proof.Machine.execChannelRetire h ch spare s
  | .channelRestore h ch => Sys2Proof.Machine.execChannelRestore h ch s
  | .laneSlip h lane slip dir => Sys2Proof.Machine.execLaneSlip h lane slip dir s
  | .eyeScan h lane phase volt dwell => Sys2Proof.Machine.execEyeScan h lane phase volt dwell s
  | .loopback h lane kind => Sys2Proof.Machine.execLoopback h lane kind s
  | .ladderRestart h ch step => Sys2Proof.Machine.execLadderRestart h ch step s
  | .cairnSet h index sf fp act rep => Sys2Proof.Machine.execCairnSet h index sf fp act rep s
  | .cairnCancel h index => Sys2Proof.Machine.execCairnCancel h index s
  | .timeAddend h hi lo => Sys2Proof.Machine.execTimeAddend h hi lo s
  | .timeStep h w2 w1 w0 => Sys2Proof.Machine.execTimeStep h w2 w1 w0 s
  | .engineLoad h engine offset words => Sys2Proof.Machine.execEngineLoad h engine offset words s
  | .engineStart h engine addr => Sys2Proof.Machine.execEngineStart h engine addr s
  | .engineStop h engine => Sys2Proof.Machine.execEngineStop h engine s
  | .bistRun h mask => Sys2Proof.Machine.execBistRun h mask s
  | .marchRun h select form => Sys2Proof.Machine.execMarchRun h select form s
  | .capture h trigger cairn => Sys2Proof.Machine.execCapture h trigger cairn s
  | .signatureRead h select => Sys2Proof.Machine.execSignatureRead h select s
  | .domainPower h on => Sys2Proof.Machine.execDomainPower h on s
  | .gateSet h gate opened => Sys2Proof.Machine.execGateSet h gate opened s
  | .logRead h first count => Sys2Proof.Machine.execLogRead h first count s
  | .logAck h last => Sys2Proof.Machine.execLogAck h last s
  | .pageRetire h ch hi lo => Sys2Proof.Machine.execPageRetire h ch hi lo s
  | .keyLoad h index wrapped => Sys2Proof.Machine.execKeyLoad h index wrapped s
  | .keyZero h index => Sys2Proof.Machine.execKeyZero h index s
  | .keyZeroAll h => Sys2Proof.Machine.execKeyZeroAll h s
  | .debugAuthChallenge h level => Sys2Proof.Machine.execDebugAuthChallenge h level s
  | .debugAuthResponse h mac => Sys2Proof.Machine.execDebugAuthResponse h mac s
  | .debugAuthLower h level => Sys2Proof.Machine.execDebugAuthLower h level s
  | .watchdogKick h => Sys2Proof.Machine.execWatchdogKick h s
  | .resetCommandPort h => Sys2Proof.Machine.execResetCommandPort h s
  | .resetDevice h bootsel => Sys2Proof.Machine.execResetDevice h bootsel s
  | .registerWrite who addr value => Sys2Proof.Machine.execRegisterWrite who addr value s
  | .rcRead who addr => Sys2Proof.Machine.execRcRead who addr s
  | .latchedGroupRead who addr => Sys2Proof.Machine.execLatchedGroupRead who addr s
  | .ghWdogPeriodWrite who value => Sys2Proof.Machine.execGhWdogPeriodWrite who value s
  | .timebaseEnable who value => Sys2Proof.Machine.execTimebaseEnable who value s
  | .timebaseDisable who value => Sys2Proof.Machine.execTimebaseDisable who value s
  | .referenceSelection who value => Sys2Proof.Machine.execReferenceSelection who value s
  | .sfArm who value => Sys2Proof.Machine.execSfArm who value s
  | .crystalInputEnable who x value => Sys2Proof.Machine.execCrystalInputEnable who x value s
  | .crystalInputDisable who x value => Sys2Proof.Machine.execCrystalInputDisable who x value s
  | .pllEnable who p value => Sys2Proof.Machine.execPllEnable who p value s
  | .pllDisable who p value => Sys2Proof.Machine.execPllDisable who p value s
  | .sscUpdate who p value => Sys2Proof.Machine.execSscUpdate who p value s
  | .chCtrlEnable who c value => Sys2Proof.Machine.execChCtrlEnable who c value s
  | .channelDisable who c value => Sys2Proof.Machine.execChannelDisable who c value s
  | .chLqWinWrite who c q value => Sys2Proof.Machine.execChLqWinWrite who c q value s
  | .launchPortFrame t c q bytes => Sys2Proof.Machine.execLaunchPortFrame t c q bytes s
  | .cisRdTagRead who idx => Sys2Proof.Machine.execCisRdTagRead who idx s
  | .cisWrDataWrite who idx value => Sys2Proof.Machine.execCisWrDataWrite who idx value s
  | .cisWrEndWrite who idx value => Sys2Proof.Machine.execCisWrEndWrite who idx value s
  | .drop who idx => Sys2Proof.Machine.execDrop who idx s
  | .flush who idx => Sys2Proof.Machine.execFlush who idx s
  | .flushDone idx dt => Sys2Proof.Machine.execFlushDone idx dt s
  | .cisternEnable who idx value => Sys2Proof.Machine.execCisternEnable who idx value s
  | .queueEnable who q value => Sys2Proof.Machine.execQueueEnable who q value s
  | .queueDisable who q value => Sys2Proof.Machine.execQueueDisable who q value s
  | .orchardEnable who r value => Sys2Proof.Machine.execOrchardEnable who r value s
  | .orchardDisable who r value => Sys2Proof.Machine.execOrchardDisable who r value s
  | .orcEqHdrWrite who r w value => Sys2Proof.Machine.execOrcEqHdrWrite who r w value s
  | .orcEqDataWrite who r w value => Sys2Proof.Machine.execOrcEqDataWrite who r w value s
  | .orcDqTagRead who r w => Sys2Proof.Machine.execOrcDqTagRead who r w s
  | .threadEnable who t value => Sys2Proof.Machine.execThreadEnable who t value s
  | .threadDisable who t value => Sys2Proof.Machine.execThreadDisable who t value s
  | .dispatcherEnable who value => Sys2Proof.Machine.execDispatcherEnable who value s
  | .dispatcherDisable who value => Sys2Proof.Machine.execDispatcherDisable who value s
  | .dspPostWrite who value => Sys2Proof.Machine.execDspPostWrite who value s
  | .snapshotTake who value => Sys2Proof.Machine.execSnapshotTake who value s
  | .acceptWrite who p value => Sys2Proof.Machine.execAcceptWrite who p value s
  | .engIrqSetWrite who e value => Sys2Proof.Machine.execEngIrqSetWrite who e value s
  | .dramChannelEnable who d value => Sys2Proof.Machine.execDramChannelEnable who d value s
  | .dramChannelDisable who d value => Sys2Proof.Machine.execDramChannelDisable who d value s
  | .trainingStart who d => Sys2Proof.Machine.execTrainingStart who d s
  | .compareRun who d value errs => Sys2Proof.Machine.execCompareRun who d value errs s
  | .drWinRead who d got => Sys2Proof.Machine.execDrWinRead who d got s
  | .drWinWrite who d => Sys2Proof.Machine.execDrWinWrite who d s
  | .monitorEnable who value => Sys2Proof.Machine.execMonitorEnable who value s
  | .traceEnable who value => Sys2Proof.Machine.execTraceEnable who value s
  | .peek who => Sys2Proof.Machine.execPeek who s
  | .consumingRead who => Sys2Proof.Machine.execConsumingRead who s
  | .blvHalt who w value => Sys2Proof.Machine.execBlvHalt who w value s
  | .blvStep who w value => Sys2Proof.Machine.execBlvStep who w value s
  | .blvResume who w value => Sys2Proof.Machine.execBlvResume who w value s
  | .blvAttachWrite who w value => Sys2Proof.Machine.execBlvAttachWrite who w value s
  | .blvStimWrite who value => Sys2Proof.Machine.execBlvStimWrite who value s
  | .bfCmdWrite who value => Sys2Proof.Machine.execBfCmdWrite who value s
  | .rawCommandEnd data dt => Sys2Proof.Machine.execRawCommandEnd data dt s
  | .logInjectWrite who value => Sys2Proof.Machine.execLogInjectWrite who value s
  | .rwStatClear who r => Sys2Proof.Machine.execRwStatClear who r s
  | .stampRecordRead who src => Sys2Proof.Machine.execStampRecordRead who src s
  | .cnEventRead who => Sys2Proof.Machine.execCnEventRead who s
  | .framePulse inp width dt => Sys2Proof.Machine.execFramePulse inp width dt s
  | .edgeAbsent inp dt => Sys2Proof.Machine.execEdgeAbsent inp dt s
  | .autonomousSwitch dt => Sys2Proof.Machine.execAutonomousSwitch dt s
  | .stampPinEdge p edge dt => Sys2Proof.Machine.execStampPinEdge p edge dt s
  | .cairnArm k dt => Sys2Proof.Machine.execCairnArm k dt s
  | .cairnCommit k dt => Sys2Proof.Machine.execCairnCommit k dt s
  | .cairnFire k dt => Sys2Proof.Machine.execCairnFire k dt s
  | .ladderBlockReceived l cap check codeErr dt => Sys2Proof.Machine.execLadderBlockReceived l cap check codeErr dt s
  | .ladderTimeout l dt => Sys2Proof.Machine.execLadderTimeout l dt s
  | .noPartner l dt => Sys2Proof.Machine.execNoPartner l dt s
  | .verifyWindowClean l dt => Sys2Proof.Machine.execVerifyWindowClean l dt s
  | .synthLock l dt => Sys2Proof.Machine.execSynthLock l dt s
  | .adaptationSettled l vals dt => Sys2Proof.Machine.execAdaptationSettled l vals dt s
  | .laneLockLoss l synth dt => Sys2Proof.Machine.execLaneLockLoss l synth dt s
  | .eyeScanEnd q err counts dt => Sys2Proof.Machine.execEyeScanEnd q err counts dt s
  | .alignWindowEnd l words dt => Sys2Proof.Machine.execAlignWindowEnd l words dt s
  | .syncWord c w before dt => Sys2Proof.Machine.execSyncWord c w before dt s
  | .dataFrameReceived c bits dt => Sys2Proof.Machine.execDataFrameReceived c bits dt s
  | .rawWordReceived c w dt => Sys2Proof.Machine.execRawWordReceived c w dt s
  | .ackReceived c bits dt => Sys2Proof.Machine.execAckReceived c bits dt s
  | .nakReceived c bits dt => Sys2Proof.Machine.execNakReceived c bits dt s
  | .markReceived c bits dt => Sys2Proof.Machine.execMarkReceived c bits dt s
  | .resyncReceived c bits dt => Sys2Proof.Machine.execResyncReceived c bits dt s
  | .retryTimeout c dt => Sys2Proof.Machine.execRetryTimeout c dt s
  | .ackTimer c dt => Sys2Proof.Machine.execAckTimer c dt s
  | .retransmissionGapSend c dt => Sys2Proof.Machine.execRetransmissionGapSend c dt s
  | .markSend c dt => Sys2Proof.Machine.execMarkSend c dt s
  | .silenceTimeout c dt => Sys2Proof.Machine.execSilenceTimeout c dt s
  | .spareSwitchIn c dt => Sys2Proof.Machine.execSpareSwitchIn c dt s
  | .cisternFabricWrite idx bytes eof dt => Sys2Proof.Machine.execCisternFabricWrite idx bytes eof dt s
  | .cisternFabricRead idx dt => Sys2Proof.Machine.execCisternFabricRead idx dt s
  | .cisternReadStallExpiry idx dt => Sys2Proof.Machine.execCisternReadStallExpiry idx dt s
  | .pointerMismatch idx read dt => Sys2Proof.Machine.execPointerMismatch idx read dt s
  | .forcedResetEnd idx dt => Sys2Proof.Machine.execForcedResetEnd idx dt s
  | .frameAdmission src dt => Sys2Proof.Machine.execFrameAdmission src dt s
  | .heldAdmissionRetry src dt => Sys2Proof.Machine.execHeldAdmissionRetry src dt s
  | .orchardDequeue t q dt => Sys2Proof.Machine.execOrchardDequeue t q dt s
  | .pressureLookup t q dt => Sys2Proof.Machine.execPressureLookup t q dt s
  | .orchardLaunchMove q dt => Sys2Proof.Machine.execOrchardLaunchMove q dt s
  | .pageSpill r dt => Sys2Proof.Machine.execPageSpill r dt s
  | .pageFetch r got dt => Sys2Proof.Machine.execPageFetch r got dt s
  | .counterNodeDoubleError n recoverable dt => Sys2Proof.Machine.execCounterNodeDoubleError n recoverable dt s
  | .auditEnd n dt => Sys2Proof.Machine.execAuditEnd n dt s
  | .descriptorUncorrectable q dt => Sys2Proof.Machine.execDescriptorUncorrectable q dt s
  | .requestAtTarget m dt => Sys2Proof.Machine.execRequestAtTarget m dt s
  | .responseAtInitiator p dt => Sys2Proof.Machine.execResponseAtInitiator p dt s
  | .holdingReceived p dt => Sys2Proof.Machine.execHoldingReceived p dt s
  | .ridgewayTimeout src dst dt => Sys2Proof.Machine.execRidgewayTimeout src dst dt s
  | .flitUncorrectable r m input p found dt => Sys2Proof.Machine.execFlitUncorrectable r m input p found dt s
  | .heartbeatMissed r m dt => Sys2Proof.Machine.execHeartbeatMissed r m dt s
  | .routerErrorReport r m dt => Sys2Proof.Machine.execRouterErrorReport r m dt s
  | .routeTableSwitch r m dt => Sys2Proof.Machine.execRouteTableSwitch r m dt s
  | .fenceAcknowledge blk dt => Sys2Proof.Machine.execFenceAcknowledge blk dt s
  | .fenceTimeout blk port dt => Sys2Proof.Machine.execFenceTimeout blk port dt s
  | .spineContention r spine drivers dt => Sys2Proof.Machine.execSpineContention r spine drivers dt s
  | .blockMemoryRead t port addr got dt => Sys2Proof.Machine.execBlockMemoryRead t port addr got dt s
  | .blockMemoryWrite t port addr data meet dt => Sys2Proof.Machine.execBlockMemoryWrite t port addr data meet dt s
  | .windowAnswer t ack data dt => Sys2Proof.Machine.execWindowAnswer t ack data dt s
  | .windowTimeout t dt => Sys2Proof.Machine.execWindowTimeout t dt s
  | .clockLineEnable t line on dt => Sys2Proof.Machine.execClockLineEnable t line on dt s
  | .repairHoldEnd t dt => Sys2Proof.Machine.execRepairHoldEnd t dt s
  | .deserialiserSlip p dt => Sys2Proof.Machine.execDeserialiserSlip p dt s
  | .vioOutOfWindow b meas dt => Sys2Proof.Machine.execVioOutOfWindow b meas dt s
  | .vioRecovery b meas dt => Sys2Proof.Machine.execVioRecovery b meas dt s
  | .crystalWindowEnd x count dt => Sys2Proof.Machine.execCrystalWindowEnd x count dt s
  | .edgeLoss x dt => Sys2Proof.Machine.execEdgeLoss x dt s
  | .frozenClear p dt => Sys2Proof.Machine.execFrozenClear p dt s
  | .xabDiffWindowEnd edges dt => Sys2Proof.Machine.execXabDiffWindowEnd edges dt s
  | .pllLock p dt => Sys2Proof.Machine.execPllLock p dt s
  | .pllUnlock p dt => Sys2Proof.Machine.execPllUnlock p dt s
  | .systemPllStart dt => Sys2Proof.Machine.execSystemPllStart dt s
  | .interruptEntry e dt => Sys2Proof.Machine.execInterruptEntry e dt s
  | .engineWatchdogExpiry e dt => Sys2Proof.Machine.execEngineWatchdogExpiry e dt s
  | .postDecision dt => Sys2Proof.Machine.execPostDecision dt s
  | .stagingDecision p dt => Sys2Proof.Machine.execStagingDecision p dt s
  | .contextWritebackEnd t dt => Sys2Proof.Machine.execContextWritebackEnd t dt s
  | .affinityWaitExpiry t dt => Sys2Proof.Machine.execAffinityWaitExpiry t dt s
  | .refresh d bank late dt => Sys2Proof.Machine.execRefresh d bank late dt s
  | .temperatureRead d t0 t1 hot dt => Sys2Proof.Machine.execTemperatureRead d t0 t1 hot dt s
  | .oscillatorTracking d drift dt => Sys2Proof.Machine.execOscillatorTracking d drift dt s
  | .initDone d dt => Sys2Proof.Machine.execInitDone d dt s
  | .trainingEnd d fail rdEye wrEye delays dt => Sys2Proof.Machine.execTrainingEnd d fail rdEye wrEye delays dt s
  | .dramPatrolRead d line got dt => Sys2Proof.Machine.execDramPatrolRead d line got dt s
  | .keySlotUncorrectable k dt => Sys2Proof.Machine.execKeySlotUncorrectable k dt s
  | .powerGood bootsel => Sys2Proof.Machine.execPowerGood bootsel s
  | .resetN lowNs bootsel dt => Sys2Proof.Machine.execResetN lowNs bootsel dt s
  | .supplyUndervoltage lowNs dt => Sys2Proof.Machine.execSupplyUndervoltage lowNs dt s
  | .memoryFillEnd blk dt => Sys2Proof.Machine.execMemoryFillEnd blk dt s
  | .gatehouseReady dt => Sys2Proof.Machine.execGatehouseReady dt s
  | .flashBoot primary fallback refStable dt => Sys2Proof.Machine.execFlashBoot primary fallback refStable dt s
  | .flashLoadEnd bytes dt => Sys2Proof.Machine.execFlashLoadEnd bytes dt s
  | .autostart dt => Sys2Proof.Machine.execAutostart dt s
  | .terraceStart t dt => Sys2Proof.Machine.execTerraceStart t dt s
  | .terraceRestore t crcOk dt => Sys2Proof.Machine.execTerraceRestore t crcOk dt s
  | .stagingEnd dt => Sys2Proof.Machine.execStagingEnd dt s
  | .configScrubRead t shadow bay frame word bitNo got dt => Sys2Proof.Machine.execConfigScrubRead t shadow bay frame word bitNo got dt s
  | .frameRestore t crcOk dt => Sys2Proof.Machine.execFrameRestore t crcOk dt s
  | .bramScrubRead t m addr got dt => Sys2Proof.Machine.execBramScrubRead t m addr got dt s
  | .patrolScrubRead place got dt => Sys2Proof.Machine.execPatrolScrubRead place got dt s
  | .gatehouseRestart dt => Sys2Proof.Machine.execGatehouseRestart dt s
  | .challengeExpiry dt => Sys2Proof.Machine.execChallengeExpiry dt s
  | .lockoutEnd dt => Sys2Proof.Machine.execLockoutEnd dt s
  | .bistSetEnd sig dt => Sys2Proof.Machine.execBistSetEnd sig dt s
  | .marchEnd faults dt => Sys2Proof.Machine.execMarchEnd faults dt s
  | .captureSnapshot edges last dt => Sys2Proof.Machine.execCaptureSnapshot edges last dt s
  | .tracePacket cls src kind d0 d1 dt => Sys2Proof.Machine.execTracePacket cls src kind d0 d1 dt s
  | .scanRound idx dt => Sys2Proof.Machine.execScanRound idx dt s
  | .conversionResult idx sample codes dt => Sys2Proof.Machine.execConversionResult idx sample codes dt s
  | .referenceConversion adc code good dt => Sys2Proof.Machine.execReferenceConversion adc code good dt s
  | .extest drive => Sys2Proof.Machine.execExtest drive s
  | .idcode => Sys2Proof.Machine.execIdcode s
  | .samplePreload pins => Sys2Proof.Machine.execSamplePreload pins s
  | .highz => Sys2Proof.Machine.execHighz s
  | .clamp => Sys2Proof.Machine.execClamp s
  | .extestPulse drive => Sys2Proof.Machine.execExtestPulse drive s
  | .extestTrain drive => Sys2Proof.Machine.execExtestTrain drive s
  | .bypass code => Sys2Proof.Machine.execBypass code s
  | .blockLock c gain dt => Sys2Proof.Machine.execBlockLock c gain dt s
  | .receiveLockChange l lock dt => Sys2Proof.Machine.execReceiveLockChange l lock dt s
  | .holdingSend dst src seq dt => Sys2Proof.Machine.execHoldingSend dst src seq dt s
  | .gatewayLinkLoss loss dt => Sys2Proof.Machine.execGatewayLinkLoss loss dt s
  | .contextStaged e dt => Sys2Proof.Machine.execContextStaged e dt s
  | .dieSensorConversion codes dt => Sys2Proof.Machine.execDieSensorConversion codes dt s
  | .undervoltageRelease bootsel dt => Sys2Proof.Machine.execUndervoltageRelease bootsel dt s

end Sys2Proof.Machine
end

