-- ==== Sys2Proof/Machine/Step.lean ====
section
/-!
DEFINITION. One step: the command at the front of the queue; on an empty queue one timebase clock passes.
-/
namespace Sys2Proof.Machine

/-- Take the command at the front and run it on the queue's rest; an empty queue lets one timebase clock of 2 ns pass
(DESIGN CHOICE, log entry 1). -/
def step (s : State) : Host.Outcome State Fault Refusal :=
  match s.pending with
  | [] => .next (s.advance 1)
  | i :: rest => exec i { s with pending := rest }

/-- `s` with the command a word spells at the front of its queue. The opcode table gives no row any bits, so no word
spells one. -/
def State.withFetchWord (s : State) (nbits w : Nat) : State :=
  match Sys2Proof.decodeTableWord nbits w with
  | none => s
  | some i => { s with pending := i :: s.pending }

end Sys2Proof.Machine
end

