-- ==== Sys2Proof/WellFormed.lean ====
section
/-!
DEFINITION. Well-formed commands: every unit, register, pin, input, router, line and port a command names exists (R5,
R24, R256). These are the commands that can occur; `exec` stops on any other with the fault `noSuchUnit`.
-/
namespace Sys2Proof

open Sys2Proof.Machine Sys2Proof.Machine.State

/-- What has lost its link exists (R22). -/
def linkExists : LinkLoss → Bool
  | .gateway r | .hubLink r => decide (r < 4)
  | .interRidge n => decide (n < 6)

/-- The numbers a command carries name things that exist. -/
def Instr.wf (i : Instr) : Bool :=
  match i with
  | .add e rd ra rb | .sub e rd ra rb | .adds e rd ra rb | .subs e rd ra rb | .slt e rd ra rb | .sltu e rd ra rb
  | .min e rd ra rb | .max e rd ra rb | .and e rd ra rb | .or e rd ra rb | .xor e rd ra rb | .sll e rd ra rb
  | .srl e rd ra rb | .sra e rd ra rb | .slli e rd ra rb | .srli e rd ra rb | .srai e rd ra rb | .mul16 e rd ra rb
  | .mul16u e rd ra rb => decide (e < 64 ∧ rd < 32 ∧ ra < 32 ∧ rb < 32)
  | .addi e rd ra _ | .slti e rd ra _ | .andi e rd ra _ | .ori e rd ra _ | .xori e rd ra _ | .cls e rd ra
  | .bexp e rd ra | .ldb e rd ra _ | .ldbu e rd ra _ | .ldh e rd ra _ | .ldhu e rd ra _ | .ldw e rd ra _
  | .ldd e rd ra _ | .stb e rd ra _ | .sth e rd ra _ | .stw e rd ra _ | .std e rd ra _ | .stws e rd ra _
  | .ll e rd ra _ | .sc e rd ra _ | .jalr e rd ra | .post e rd ra => decide (e < 64 ∧ rd < 32 ∧ ra < 32)
  | .lui e rd _ | .mfc e rd _ => decide (e < 64 ∧ rd < 32)
  | .beq e ra rb _ | .bne e ra rb _ | .blt e ra rb _ | .bge e ra rb _ | .bltu e ra rb _ | .bgeu e ra rb _ =>
    decide (e < 64 ∧ ra < 32 ∧ rb < 32)
  | .j e _ | .jal e _ | .ftap e _ _ | .ftapn e _ _ | .aclr e _ | .aadd e _ | .ash e _ _ | .reti e | .texit e
  | .yield e | .wdk e | .fence e | .brk e | .interruptEntry e _ | .engineWatchdogExpiry e _ | .contextStaged e _ =>
    decide (e < 64)
  | .jr e ra | .mtc e ra _ => decide (e < 64 ∧ ra < 32)
  | .mac e _ x y _ | .msu e _ x y _ | .mpy e _ x y _ => decide (e < 64 ∧ x < 32 ∧ y < 32)
  | .afrom e _ x | .aexp e _ x | .amov e _ x _ _ => decide (e < 64 ∧ x < 32)
  | .rpt e useReg _ count => decide (e < 64) && (!useReg || decide (count < 32))
  | .pub e flags => decide (e < 64 ∧ flags < 32)
  | .writePacket _ _ | .readReply _ _ | .readStatus _ | .badTransactionCode _ | .watchdogExpiry _ | .ping _ _
  | .identify _ | .status _ | .paramRead _ _ | .paramWrite _ _ _ | .paramModify _ _ _ _ | .paramReadBlock _ _ _
  | .paramWriteBlock _ _ _ | .imageBegin _ _ _ _ _ _ | .imageData _ _ _ | .imageCommit _ | .overlayStage _ _
  | .overlayApply _ _ _ | .modeEnter _ _ _ | .start _ | .channelEnable _ _ _ _ | .channelRetire _ _ _
  | .channelRestore _ _ | .laneSlip _ _ _ _ | .eyeScan _ _ _ _ _ | .loopback _ _ _ | .ladderRestart _ _ _
  | .cairnSet _ _ _ _ _ _ | .cairnCancel _ _ | .timeAddend _ _ _ | .timeStep _ _ _ _ | .engineLoad _ _ _ _
  | .engineStart _ _ _ | .engineStop _ _ | .bistRun _ _ | .marchRun _ _ _ | .capture _ _ _ | .signatureRead _ _
  | .domainPower _ _ | .gateSet _ _ _ | .logRead _ _ _ | .logAck _ _ | .pageRetire _ _ _ _ | .keyLoad _ _ _
  | .keyZero _ _ | .keyZeroAll _ | .debugAuthChallenge _ _ | .debugAuthResponse _ _ | .debugAuthLower _ _
  | .watchdogKick _ | .resetCommandPort _ | .resetDevice _ _ | .rawCommandEnd _ _ | .autonomousSwitch _
  | .heldAdmissionRetry _ _ | .xabDiffWindowEnd _ _ | .systemPllStart _ | .postDecision _ | .powerGood _
  | .resetN _ _ _ | .supplyUndervoltage _ _ | .gatehouseReady _ | .flashBoot _ _ _ _ | .flashLoadEnd _ _
  | .autostart _ | .stagingEnd _ | .gatehouseRestart _ | .challengeExpiry _ | .lockoutEnd _ | .bistSetEnd _ _
  | .extest _ | .idcode | .samplePreload _ | .highz | .clamp | .extestPulse _ | .extestTrain _ | .bypass _
  | .marchEnd _ _ | .captureSnapshot _ _ _ | .dieSensorConversion _ _ | .undervoltageRelease _ _ => true
  | .registerWrite who _ _ | .rcRead who _ | .latchedGroupRead who _ | .ghWdogPeriodWrite who _
  | .timebaseEnable who _ | .timebaseDisable who _ | .referenceSelection who _ | .sfArm who _
  | .dispatcherEnable who _ | .dispatcherDisable who _ | .dspPostWrite who _ | .snapshotTake who _
  | .monitorEnable who _ | .traceEnable who _ | .peek who | .consumingRead who | .blvStimWrite who _
  | .bfCmdWrite who _ | .logInjectWrite who _ | .cnEventRead who => Accessor.ok who
  | .crystalInputEnable who x _ | .crystalInputDisable who x _ => decide (x < 2) && Accessor.ok who
  | .pllEnable who p _ | .pllDisable who p _ | .sscUpdate who p _ => decide (p < 16) && Accessor.ok who
  | .chCtrlEnable who c _ | .channelDisable who c _ => decide (c < 144) && Accessor.ok who
  | .chLqWinWrite who c q _ => decide (c < 144 ∧ q < 8) && Accessor.ok who
  | .launchPortFrame t c q _ => decide (t < 128 ∧ c < 144 ∧ q < 8)
  | .cisRdTagRead who i | .cisWrDataWrite who i _ | .cisWrEndWrite who i _ | .drop who i | .flush who i
  | .cisternEnable who i _ => decide (i < 272) && Accessor.ok who
  | .flushDone i _ | .cisternFabricRead i _ | .cisternReadStallExpiry i _ | .pointerMismatch i _ _
  | .forcedResetEnd i _ => decide (i < 272)
  | .queueEnable who q _ | .queueDisable who q _ => decide (q < 65536) && Accessor.ok who
  | .orchardEnable who r _ | .orchardDisable who r _ => decide (r < 4) && Accessor.ok who
  | .orcEqHdrWrite who r w _ | .orcEqDataWrite who r w _ | .orcDqTagRead who r w =>
    decide (r < 4 ∧ w < 16) && Accessor.ok who
  | .threadEnable who t _ | .threadDisable who t _ => decide (t < 8192) && Accessor.ok who
  | .acceptWrite who p _ => decide (p < 8) && Accessor.ok who
  | .engIrqSetWrite who e _ => decide (e < 64) && Accessor.ok who
  | .dramChannelEnable who d _ | .dramChannelDisable who d _ | .trainingStart who d | .compareRun who d _ _
  | .drWinRead who d _ | .drWinWrite who d => decide (d < 16) && Accessor.ok who
  | .blvHalt who w _ | .blvStep who w _ | .blvResume who w _ | .blvAttachWrite who w _ =>
    decide (w < 2) && Accessor.ok who
  | .rwStatClear who r => decide (r < 5) && Accessor.ok who
  | .stampRecordRead who src => decide (src < 208) && Accessor.ok who
  | .framePulse inp _ _ | .edgeAbsent inp _ => decide (inp < 2)
  | .stampPinEdge p _ _ => decide (p < 64)
  | .cairnArm k _ | .cairnCommit k _ | .cairnFire k _ => decide (k < 4096)
  | .ladderBlockReceived l _ _ _ _ | .ladderTimeout l _ | .noPartner l _ | .verifyWindowClean l _ | .synthLock l _
  | .adaptationSettled l _ _ | .laneLockLoss l _ _ | .alignWindowEnd l _ _ | .receiveLockChange l _ _ =>
    decide (l < 144)
  | .eyeScanEnd q _ _ _ => decide (q < 36)
  | .syncWord c _ _ _ | .dataFrameReceived c _ _ | .rawWordReceived c _ _ | .ackReceived c _ _ | .nakReceived c _ _
  | .markReceived c _ _ | .resyncReceived c _ _ | .retryTimeout c _ | .ackTimer c _ | .retransmissionGapSend c _
  | .markSend c _ | .silenceTimeout c _ | .spareSwitchIn c _ | .blockLock c _ _ => decide (c < 144)
  | .cisternFabricWrite i _ _ _ => decide (144 ≤ i ∧ i < 272)
  | .frameAdmission src _ =>
    (match src with | .cistern i => decide (i < 272) | .port t q _ _ _ => decide (t < 128 ∧ q < 65536))
  | .orchardDequeue t q _ | .pressureLookup t q _ => decide (t < 128 ∧ q < 65536)
  | .orchardLaunchMove q _ | .descriptorUncorrectable q _ => decide (q < 65536)
  | .pageSpill r _ | .pageFetch r _ _ => decide (r < 4)
  | .counterNodeDoubleError n _ _ | .auditEnd n _ => nodeOk n
  | .requestAtTarget m _ => portExists m.pkt.src && portExists m.pkt.dst
  | .responseAtInitiator p _ | .holdingReceived p _ => portExists p.src && portExists p.dst
  | .ridgewayTimeout src dst _ => portExists src && portExists dst
  | .flitUncorrectable r m input _ _ _ => decide (r < 4 ∧ m < 16) && inputExists m input
  | .heartbeatMissed r m _ | .routerErrorReport r m _ | .routeTableSwitch r m _ => decide (r < 4 ∧ m < 16)
  | .fenceAcknowledge blk _ | .memoryFillEnd blk _ => decide (blk ∈ allDomains)
  | .fenceTimeout blk port _ => decide (blk ∈ allDomains) && portExists port
  | .spineContention r spine drivers _ =>
    decide (r < 4) && decide (spine < 128) && drivers.all (fun t => decide (t / 32 = r))
  | .blockMemoryRead t port addr _ _ | .blockMemoryWrite t port addr _ _ _ =>
    decide (t < 128) && decide (port.mem < 32) && decide (addr < 1024)
  | .windowAnswer t _ _ _ | .windowTimeout t _ | .repairHoldEnd t _ | .terraceStart t _ | .terraceRestore t _ _
  | .frameRestore t _ _ => decide (t < 128)
  | .clockLineEnable t line _ _ => decide (t < 128) && decide (line < 4)
  | .deserialiserSlip p _ => decide (p < 416)
  | .vioOutOfWindow b meas _ | .vioRecovery b meas _ => decide (b < 13) && decide (meas < 6)
  | .crystalWindowEnd x _ _ | .edgeLoss x _ => decide (x < 2)
  | .frozenClear p _ | .pllLock p _ | .pllUnlock p _ => decide (p < 16)
  | .stagingDecision p _ => decide (p < 8)
  | .contextWritebackEnd t _ | .affinityWaitExpiry t _ => decide (t < 8192)
  | .refresh d bank _ _ => decide (d < 16 ∧ bank < 16)
  | .temperatureRead d _ _ _ _ | .oscillatorTracking d _ _ | .initDone d _ | .trainingEnd d _ _ _ _ _
  | .dramPatrolRead d _ _ _ => decide (d < 16)
  | .keySlotUncorrectable k _ => decide (k < 64)
  | .configScrubRead t _ bay frame word bitNo _ _ => decide (t < 128 ∧ bay < 512 ∧ frame < 9 ∧ word < 63 ∧ bitNo < 39)
  | .bramScrubRead t m addr _ _ => decide (t < 128 ∧ m < 32 ∧ addr < 1024)
  | .patrolScrubRead place _ _ => patrolOk place
  | .tracePacket c src _ _ _ _ => traceSource c src
  | .scanRound i _ | .conversionResult i _ _ _ => monValid i
  | .referenceConversion adc _ _ _ => decide (adc < 2)
  | .holdingSend dst src _ _ => portExists src && portExists dst
  | .gatewayLinkLoss loss _ => linkExists loss

end Sys2Proof
end

