-- ==== Sys2Proof/Safety.lean ====
section
/-!
DEFINITION. The terms in which claims are stated: well-formed queues, when an engine issues an instruction with nothing
else at its boundary, when the Gatehouse carries a packet out, how a reply reads, and what stays unchanged.
-/
namespace Sys2Proof

open Sys2Proof.Machine

/-- Every waiting command is well-formed. -/
def Machine.State.queueWf (s : Machine.State) : Bool := s.pending.all Instr.wf

namespace Machine

namespace State

/-! ### Engines -/

/-- Engine `e` issues the instruction at its PC and nothing else takes this boundary: it may issue, the PC is a word of
its scratchpad that its code finds clean (R356), no breakpoint meets it, and no stop, step, halt or watchpoint waits. -/
def quiet (s : State) (e : Nat) : Bool :=
  let x := s.eng e
  s.mayIssue e && decide (x.ctx.pc < spadSize) && decide (x.ctx.pc % 4 = 0) && (s.breakAt e x.ctx.pc).isNone &&
  !x.stopPending && !x.dbg.stepping && !x.dbg.haltPending && x.dbg.watchHit.isNone &&
  !s.spadBadAt e x.ctx.pc && decide (s.weakAt (.scratchpad e (x.ctx.pc / 8 * 8)) ≠ .corrected)

/-- Only engine `e`'s record and its instruction count differ between two states. -/
def onlyEngine (s t : State) (e : Nat) : Prop :=
  { t with engines := s.engines, regs := s.regs, tick := s.tick } = s ∧ (∀ f, f ≠ e → t.eng f = s.eng f) ∧
  (∀ a, a ≠ aEng e + 0x40 → t.reg a = s.reg a) ∧ t.reg (aEng e + 0x40) = satAdd (s.reg (aEng e + 0x40)) 1

/-- The record of an engine that has passed a breakpoint by issuing; its earlier stores are one instruction older (R353). -/
def atIssue (s : State) (e : Nat) : Engine := { (s.eng e).ageCode with dbg := { (s.eng e).dbg with skip := false } }

/-- The instruction completes: a next state in which the engine's record is `f` of what it was, the instruction is
counted, and nothing else differs. -/
def retires (s : State) (i : Instr) (e : Nat) (f : Engine → Engine) : Prop :=
  ∃ t, exec i s = .next t ∧ s.onlyEngine t e ∧ t.eng e = f (s.atIssue e)

/-- The instruction completes with a value for register rd, and goes on. -/
def writes (s : State) (i : Instr) (e rd : Nat) (v : Word) : Prop :=
  s.retires i e (fun x => (x.setG rd v).advance)

/-- A load of a word that the code corrects completes: the engine's record is `f` of what it was, the scratchpad and the error
stay (R356, R486). -/
def delivers (s : State) (i : Instr) (e : Nat) (f : Engine → Engine) : Prop :=
  ∃ t, exec i s = .next t ∧ t.eng e = f (s.atIssue e) ∧ t.spad = s.spad ∧ t.spadBad = s.spadBad ∧ t.weak = s.weak

/-- A store completes: the n bytes from address `a` of engine `e`'s scratchpad take the low n bytes of `v`, most
significant first, the coded-word marks change only where a whole word is written, the coded word holds no correctable error
then, the engine's record is `f` of what it was with the bytes fetch still sees, and nothing else differs. -/
def storesAs (s : State) (i : Instr) (e a n v : Nat) (f : Engine → Engine) : Prop :=
  ∃ t, exec i s = .next t ∧ s.onlyEngine { t with spad := s.spad, spadBad := s.spadBad, weak := s.weak } e ∧
    t.eng e = f { s.atIssue e with
      oldCode := (s.atIssue e).oldCode ++ ((List.range n).map (fun k => (a + k, s.spadByte e (a + k), 8))) } ∧
    (∀ p, t.weakAt p = if p = .scratchpad e (a / 8 * 8) then .clean else s.weakAt p) ∧
    (∀ k, Table.get (fun _ => 0) t.spad k =
      if e * spadSize + a ≤ k ∧ k < e * spadSize + a + n then
        BitVec.ofNat 8 (v / 256 ^ (n - 1 - (k - (e * spadSize + a))))
      else Table.get (fun _ => 0) s.spad k) ∧
    (∀ k, Table.get (fun _ => false) t.spadBad k =
      if n = 8 ∧ k = e * (spadSize / 8) + a / 8 then false else Table.get (fun _ => false) s.spadBad k)

/-- A store that clears a reservation on its granule and goes on. -/
def stores (s : State) (i : Instr) (e a n v : Nat) : Prop := s.storesAs i e a n v (fun x => (x.clearRes a).advance)

/-- The instruction faults with a cause and a data address (R370). -/
def faults (s : State) (i : Instr) (e cause addr : Nat) : Prop :=
  exec i s = .next (((s.issued e).engineFault e cause addr).settle e)

/-! ### Completion and frames -/

/-- The command completes with a next state of which `P` holds. -/
def completes (s : State) (i : Instr) (P : State → Prop) : Prop := ∃ t, exec i s = .next t ∧ P t

/-- Nothing but the registers at the addresses listed differs. -/
def onlyRegs (s t : State) (l : List Nat) : Prop := { t with regs := s.regs, tick := s.tick } = s ∧ ∀ a, a ∉ l → t.reg a = s.reg a

/-- Nothing but the Gatehouse and the registers at the addresses listed differs. -/
def onlyGhRegs (s t : State) (l : List Nat) : Prop :=
  { t with regs := s.regs, tick := s.tick, gh := s.gh } = s ∧ ∀ a, a ∉ l → t.reg a = s.reg a

/-- While the log has room, an event of a block with a detail word is one entry more, after those of earlier clocks, which
stay as they are (R502). -/
def logs (s t : State) (ev blk : Nat) (d0 : Word) : Prop :=
  let is := fun (e : LogEntry) => decide (fld (e.words.getD 0 0) 27 16 = ev) && decide (fld (e.words.getD 0 0) 15 0 = blk) &&
    decide (e.words.getD 6 0 = d0)
  let old := s.log.entries.length - s.tick.logged
  s.log.entries.length < 992 → t.log.entries.take old = s.log.entries.take old ∧
    (s.log.entries.filter is).length < (t.log.entries.filter is).length

/-! ### The Gatehouse -/

/-- The Gatehouse carries the packet out: it is accepted, no self-test holds its unit, and its unit can be reached. -/
def runs (s : State) (op : Nat) (h : Hdr) (ws : List Word) : Bool :=
  !s.pwr.held && s.accepted op h ws && !s.bistRefuses op h ws && decide (s.unitReach op ws = 0)

/-- The final reply to a packet is held (R48, R53). -/
def answered (t : State) (op : Nat) (h : Hdr) (st re : Byte) (ws : List Word) : Prop :=
  t.gh.running = none ∧
  t.gh.held = { opcode := BitVec.ofNat 8 op, status := st, reason := re, tag := h.tag, target := h.target, data := ws }

/-- The command completes with its final reply, in a next state of which `P` holds. -/
def replies (s : State) (i : Instr) (op : Nat) (h : Hdr) (st re : Byte) (ws : List Word) (P : State → Prop) : Prop :=
  s.completes i (fun t => t.answered op h st re ws ∧ P t)

/-- Nothing outside the Gatehouse differs. -/
def onlyGatehouse (s t : State) : Prop := { t with gh := s.gh } = s

end State

end Machine

end Sys2Proof
end

