-- ==== Sys2Proof/Certificates/Slice0/Obligations.lean ====
section
/-!
DEFINITION. The statements for the provers. Each docstring names the rule of the specification a statement follows, or
says that it states a choice of the model and names the log entry.
-/

open Sys2Proof Sys2Proof.Machine

/-- The queue is first in, first out; what an empty queue does is the model's choice (log entry 1). -/
def Obligations.StepRunsTheFrontCommand : Prop :=
  (∀ (c : Instr) (rest : List Instr) (s : State),
    step { s with pending := c :: rest } = exec c { s with pending := rest }) ∧
  (∀ s : State, s.pending = [] → step s = .next (s.advance 1) ∧ (s.advance 1).now = s.now + 2000)

/-- No command that can occur stops the machine. -/
def Obligations.WellFormedCommandsNeverStop : Prop :=
  ∀ (c : Instr) (s : State),
    (c.wf = true → ∃ t, exec c s = .next t) ∧ (c.wf = false → exec c s = .fault .noSuchUnit)

/-- Reset (R440, R443, R78, R52). -/
def Obligations.ResetState : Prop :=
  let s := State.reset
  s.mode = .boot ∧ s.pending = [] ∧ s.gh.running = none ∧ s.gh.held = {} ∧ s.gh.cache = [] ∧ s.gh.auth = 0 ∧
  s.gh.wdog = 0 ∧ s.log.entries = [] ∧ s.tbOn = false ∧ s.tb.fp = 0 ∧ s.tb.devTime = 0 ∧
  (∀ k, (s.keySlot k).key = []) ∧ (∀ d, s.domainOn d = true ∧ s.gateOpen d = true ∧ s.fence d = .opened) ∧
  (∀ e, (s.eng e).st = .stopped ∧ (s.eng e).ctx.pc = 0) ∧ (∀ a, s.reg a = (specAt a).reset) ∧
  s.peek 0x10000 = 0x8000 ∧ s.peek 0x10 = 0

/-- R43. -/
def Obligations.ReadStatusTransaction : Prop :=
  ∀ s : State, s.pwr.held = false →
    (exec (.readStatus false) s = .next { s with gh := { s.gh with
        portOut := [s.portStat, s.replyInfo, crc32cWords [s.portStat, s.replyInfo]], alert := false } }) ∧
    (∀ h, s.runs 0x10 h [0x10000] = true →
      ∃ t, exec (.paramRead h 0x10000) s = .next t ∧ t.answered 0x10 h 0 0 [s.portStat] ∧
        t.gh.alert = (s.gh.alert || decide (h.flags &&& 1 ≠ 0))) ∧
    (∀ h, s.runs 0x10 h [0x10004] = true →
      ∃ t, exec (.paramRead h 0x10004) s = .next t ∧ t.answered 0x10 h 0 0 [s.replyInfo] ∧
        t.gh.alert = (s.gh.alert || decide (h.flags &&& 1 ≠ 0)))

/-- R44. -/
def Obligations.BadTransactionCode : Prop :=
  ∀ (s : State) (code : Byte), s.pwr.held = false →
    code ∉ ([0x02, 0x32, 0x0B, 0x6B, 0x05, 0x65] : List Byte) →
    ∃ t, exec (.badTransactionCode code) s = .next t ∧ s.onlyGatehouse t ∧ t.gh.lastStatus = 0x05 ∧
      t.gh.lastReason = 0x01 ∧
      t.gh.badFrames = Min.min 255 (s.gh.badFrames + 1) ∧ t.gh.held = s.gh.held ∧ t.gh.cache = s.gh.cache ∧
      t.gh.running = s.gh.running ∧ t.gh.alert = s.gh.alert

/-- The judgement of a packet (R50, R51, R54-R58) and READ_REPLY (R42, R53). -/
def Obligations.PacketJudgement : Prop :=
  (∀ (s : State) (op : Nat) (h : Hdr) (ws : List Word), s.pwr.held = false → s.gh.ready = true → op < 256 →
    ws.length ≤ 4096 →
    let bytes := State.packetBytes op h ws
    let crc := crc32cWords ([at_ 24 op ||| at_ 16 h.flags.toNat ||| w32 h.tag.toNat,
      at_ 16 ws.length ||| w32 h.target.toNat] ++ ws)
    (s.gh.running ≠ none → ∃ t, exec (.writePacket bytes false) s = .next t ∧ s.onlyGatehouse t ∧
      t.gh.lastStatus = 0x02 ∧ t.gh.lastReason = 0x30 ∧ t.gh.held = s.gh.held ∧ t.gh.running = s.gh.running) ∧
    (s.gh.running = none → ∃ t, exec (.writePacket bytes false) s = .next t ∧ s.onlyGatehouse t ∧
      t.gh.lastStatus = 0 ∧ t.gh.lastReason = 0 ∧
      (h.tag = 0 ∨ h.flags &&& 0xFE ≠ 0 → t.answered op h 0x02 0x02 [] ∧ t.gh.cache = s.gh.cache) ∧
      (h.tag ≠ 0 → h.flags &&& 0xFE = 0 →
        (∀ c, s.gh.cache.find? (fun c => decide (c.tag = h.tag)) = some c →
          (c.crc ≠ crc → t.answered op h 0x02 0x04 [] ∧ t.gh.cache = s.gh.cache) ∧
          (c.crc = crc → t.gh.running = none ∧ (c.reply.status = 0 → t.gh.cache = s.gh.cache) ∧
            (c.reply.status ≠ 0 → t.gh.cache =
              (s.gh.cache ++ [({ tag := h.tag, crc := crc, reply := c.reply } : CacheEntry)]).drop
                (s.gh.cache.length + 1 - 16)) ∧
            t.gh.held = if c.reply.status = 0 then { c.reply with status := 0x04 } else c.reply)) ∧
        (s.gh.cache.find? (fun c => decide (c.tag = h.tag)) = none →
          (∀ st re, s.generalCheck op h ws = some (st, re) → t.answered op h st re []) ∧
          (s.generalCheck op h ws = none →
            t.gh.running = some { op := op, hdr := h, params := ws, crc := crc, acceptedAt := s.now } ∧ t.accepted op h ws = true))))) ∧
  (∀ (s : State) (n : Nat), s.pwr.held = false →
    ∃ t, exec (.readReply false n) s = .next t ∧ s.onlyGatehouse t ∧ t.gh.held = s.gh.held ∧
      t.gh.portOut = ((s.heldView.words ++ [crc32cWords s.heldView.words]) ++ List.replicate n 0).take n ∧
      (s.gh.running = none → s.heldView = s.gh.held) ∧
      (∀ r, s.gh.running = some r →
        s.heldView.status = 0x01 ∧ s.heldView.reason = 0 ∧ s.heldView.tag = r.hdr.tag ∧
        s.heldView.target = r.hdr.target ∧ s.heldView.data = []))

/-- R59. -/
def Obligations.ReplayHasNoEffect : Prop :=
  ∀ (s : State) (op : Nat) (h : Hdr) (ws : List Word) (c : CacheEntry) (addr value : Word),
    s.pwr.held = false → s.gh.ready = true → s.gh.running = none → op < 256 → ws.length ≤ 4096 →
    h.tag ≠ 0 → h.flags &&& 0xFE = 0 → s.gh.cache.find? (fun c => decide (c.tag = h.tag)) = some c →
    let crcOf := fun (op : Nat) (ws : List Word) =>
      crc32cWords ([at_ 24 op ||| at_ 16 h.flags.toNat ||| w32 h.tag.toNat,
        at_ 16 ws.length ||| w32 h.target.toNat] ++ ws)
    let quiet := fun (t : State) =>
      s.onlyGatehouse t ∧ t.gh.running = none ∧ t.gh.wdog = s.gh.wdog ∧ t.gh.auth = s.gh.auth ∧
      (c.reply.status = 0 → t.gh.cache = s.gh.cache)
    (c.crc = crcOf op ws → ∃ t, exec (.writePacket (State.packetBytes op h ws) false) s = .next t ∧ quiet t) ∧
    (c.crc = crcOf 0x7E [] → ∃ t, exec (.watchdogKick h) s = .next t ∧ quiet t) ∧
    (c.crc = crcOf 0x11 [addr, value] → ∃ t, exec (.paramWrite h addr value) s = .next t ∧ quiet t)

/-- The register and immediate instructions of the instruction table (R351): each completes, rd takes its result, and nothing
else of the device changes. -/
def Obligations.RegisterInstructions : Prop :=
  ∀ (s : State) (e rd ra rb : Nat) (imm : BitVec 16), s.quiet e = true → e < 64 → rd < 32 → ra < 32 → rb < 32 →
    let a := (s.eng e).g ra
    let b := (s.eng e).g rb
    s.writes (.add e rd ra rb) e rd (BitVec.ofNat 32 (a.toNat + b.toNat)) ∧
    s.writes (.sub e rd ra rb) e rd (BitVec.ofInt 32 (a.toNat - b.toNat)) ∧
    s.writes (.adds e rd ra rb) e rd (BitVec.ofInt 32 (clampInt (-2147483648) 2147483647 (a.toInt + b.toInt))) ∧
    s.writes (.subs e rd ra rb) e rd (BitVec.ofInt 32 (clampInt (-2147483648) 2147483647 (a.toInt - b.toInt))) ∧
    s.writes (.slt e rd ra rb) e rd (if a.toInt < b.toInt then 1 else 0) ∧
    s.writes (.sltu e rd ra rb) e rd (if a.toNat < b.toNat then 1 else 0) ∧
    s.writes (.min e rd ra rb) e rd (BitVec.ofInt 32 (Min.min a.toInt b.toInt)) ∧
    s.writes (.max e rd ra rb) e rd (BitVec.ofInt 32 (Max.max a.toInt b.toInt)) ∧
    s.writes (.and e rd ra rb) e rd (a &&& b) ∧
    s.writes (.or e rd ra rb) e rd (a ||| b) ∧
    s.writes (.xor e rd ra rb) e rd (a ^^^ b) ∧
    s.writes (.sll e rd ra rb) e rd (BitVec.ofNat 32 (a.toNat * 2 ^ (b.toNat % 32))) ∧
    s.writes (.srl e rd ra rb) e rd (BitVec.ofNat 32 (a.toNat / 2 ^ (b.toNat % 32))) ∧
    s.writes (.sra e rd ra rb) e rd (BitVec.ofInt 32 (a.toInt / 2 ^ (b.toNat % 32))) ∧
    s.writes (.slli e rd ra rb) e rd (BitVec.ofNat 32 (a.toNat * 2 ^ rb)) ∧
    s.writes (.srli e rd ra rb) e rd (BitVec.ofNat 32 (a.toNat / 2 ^ rb)) ∧
    s.writes (.srai e rd ra rb) e rd (BitVec.ofInt 32 (a.toInt / 2 ^ rb)) ∧
    s.writes (.mul16 e rd ra rb) e rd
      (BitVec.ofInt 32 ((a.extractLsb' 0 16).toInt * (b.extractLsb' 0 16).toInt)) ∧
    s.writes (.mul16u e rd ra rb) e rd
      (BitVec.ofNat 32 ((a.extractLsb' 0 16).toNat * (b.extractLsb' 0 16).toNat)) ∧
    (s.writes (.addi e rd ra imm) e rd (BitVec.ofInt 32 (a.toInt + imm.toInt)) ∧
     s.writes (.slti e rd ra imm) e rd (if a.toInt < imm.toInt then 1 else 0) ∧
     s.writes (.andi e rd ra imm) e rd (a &&& BitVec.ofNat 32 imm.toNat) ∧
     s.writes (.ori e rd ra imm) e rd (a ||| BitVec.ofNat 32 imm.toNat) ∧
     s.writes (.xori e rd ra imm) e rd (a ^^^ BitVec.ofNat 32 imm.toNat) ∧
     s.writes (.lui e rd imm) e rd (BitVec.ofNat 32 (imm.toNat * 65536)))

/-- R359: the counts of CLS, BEXP and AEXP. `n` is the number of leading bits equal to the top bit. -/
def Obligations.LeadingBitCounts : Prop :=
  ∀ (s : State) (e rd ra a n : Nat), s.quiet e = true → e < 64 → rd < 32 → ra < 32 → a < 2 →
    let v := (s.eng e).g ra
    let acc := (s.eng e).acc a
    ((1 ≤ n ∧ n ≤ 32 ∧ (∀ k, k < n → v.getMsbD k = v.getMsbD 0) ∧ (n = 32 ∨ v.getMsbD n ≠ v.getMsbD 0)) →
      s.writes (.cls e rd ra) e rd (BitVec.ofNat 32 (n - 1)) ∧
      s.writes (.bexp e rd ra) e rd
        (BitVec.ofInt 32 (Min.min ((s.eng e).g rd).toInt (n - 1)))) ∧
    ((1 ≤ n ∧ n ≤ 40 ∧ (∀ k, k < n → acc.getMsbD k = acc.getMsbD 0) ∧ (n = 40 ∨ acc.getMsbD n ≠ acc.getMsbD 0)) →
      s.writes (.aexp e a rd) e rd (BitVec.ofInt 32 ((n : Int) - 9))) ∧
    ((acc = 0 ∨ acc = BitVec.allOnes 40) → s.writes (.aexp e a rd) e rd 31)

/-- The loads from the own scratchpad (R349, R351). The byte order is the model's choice (log entry 8). -/
def Obligations.ScratchpadLoads : Prop :=
  ∀ (s : State) (e rd ra : Nat) (imm : BitVec 16), s.quiet e = true → e < 64 → rd < 32 → ra < 32 →
    let a := ((s.eng e).g ra + imm.signExtend 32).toNat
    let byte := fun k => (s.spadByte e (a + k)).toNat
    let weak := s.weakAt (.scratchpad e (a / 8 * 8))
    a < 0x40000 → s.spadBadAt e a = false → s.watchAt e a false = none →
    (weak = .corrected →
      s.delivers (.ldb e rd ra imm) e (fun x => (x.setG rd (BitVec.ofInt 32 (s.spadByte e a).toInt)).advance) ∧
      s.delivers (.ldbu e rd ra imm) e (fun x => (x.setG rd (BitVec.ofNat 32 (byte 0))).advance) ∧
      (a % 2 = 0 →
        s.delivers (.ldh e rd ra imm) e (fun x =>
          (x.setG rd (BitVec.ofInt 32 (BitVec.ofNat 16 (byte 0 * 256 + byte 1)).toInt)).advance) ∧
        s.delivers (.ldhu e rd ra imm) e (fun x => (x.setG rd (BitVec.ofNat 32 (byte 0 * 256 + byte 1))).advance)) ∧
      (a % 4 = 0 → s.delivers (.ldw e rd ra imm) e (fun x =>
        (x.setG rd (BitVec.ofNat 32 (byte 0 * 16777216 + byte 1 * 65536 + byte 2 * 256 + byte 3))).advance)) ∧
      (a % 8 = 0 → rd % 2 = 0 → s.delivers (.ldd e rd ra imm) e (fun x =>
        ((x.setG rd (BitVec.ofNat 32 (byte 0 * 16777216 + byte 1 * 65536 + byte 2 * 256 + byte 3))).setG (rd + 1)
          (BitVec.ofNat 32 (byte 4 * 16777216 + byte 5 * 65536 + byte 6 * 256 + byte 7))).advance))) ∧
    (weak ≠ .corrected → s.writes (.ldb e rd ra imm) e rd (BitVec.ofInt 32 (s.spadByte e a).toInt) ∧
    s.writes (.ldbu e rd ra imm) e rd (BitVec.ofNat 32 (byte 0)) ∧
    (a % 2 = 0 →
      s.writes (.ldh e rd ra imm) e rd (BitVec.ofInt 32 (BitVec.ofNat 16 (byte 0 * 256 + byte 1)).toInt) ∧
      s.writes (.ldhu e rd ra imm) e rd (BitVec.ofNat 32 (byte 0 * 256 + byte 1))) ∧
    (a % 4 = 0 →
      s.writes (.ldw e rd ra imm) e rd
        (BitVec.ofNat 32 (byte 0 * 16777216 + byte 1 * 65536 + byte 2 * 256 + byte 3))) ∧
    (a % 8 = 0 → rd % 2 = 0 →
      s.retires (.ldd e rd ra imm) e (fun x =>
        ((x.setG rd (BitVec.ofNat 32 (byte 0 * 16777216 + byte 1 * 65536 + byte 2 * 256 + byte 3))).setG (rd + 1)
          (BitVec.ofNat 32 (byte 4 * 16777216 + byte 5 * 65536 + byte 6 * 256 + byte 7))).advance)))

/-- The stores into the own scratchpad (R349, R351, R365). The byte order is the model's choice (log entry 8). -/
def Obligations.ScratchpadStores : Prop :=
  ∀ (s : State) (e rd ra : Nat) (imm : BitVec 16), s.quiet e = true → e < 64 → rd < 32 → ra < 32 →
    let a := ((s.eng e).g ra + imm.signExtend 32).toNat
    let v := (s.eng e).g rd
    let w := (s.eng e).g (rd + 1)
    a < 0x40000 → s.watchAt e a true = none →
    (s.spadBadAt e a = false → s.stores (.stb e rd ra imm) e a 1 v.toNat) ∧
    (s.spadBadAt e a = false → a % 2 = 0 → s.stores (.sth e rd ra imm) e a 2 v.toNat) ∧
    (s.spadBadAt e a = false → a % 4 = 0 → s.stores (.stw e rd ra imm) e a 4 v.toNat) ∧
    (a % 8 = 0 → rd % 2 = 0 → s.stores (.std e rd ra imm) e a 8 (v.toNat * 4294967296 + w.toNat))

/-- LL and SC (R365). The byte order of the word is the model's choice (log entry 8). -/
def Obligations.LockedSequence : Prop :=
  ∀ (s : State) (e rd ra : Nat) (imm : BitVec 16), s.quiet e = true → e < 64 → rd < 32 → ra < 32 →
    let a := ((s.eng e).g ra + imm.signExtend 32).toNat
    let byte := fun k => (s.spadByte e (a + k)).toNat
    (0x40000 ≤ a → s.faults (.ll e rd ra imm) e 5 a ∧ s.faults (.sc e rd ra imm) e 5 a) ∧
    (a < 0x40000 → a % 4 = 0 → s.spadBadAt e a = false → s.watchAt e a false = none →
      s.weakAt (.scratchpad e (a / 8 * 8)) = .corrected →
      s.delivers (.ll e rd ra imm) e (fun x =>
        ({ x.setG rd (BitVec.ofNat 32 (byte 0 * 16777216 + byte 1 * 65536 + byte 2 * 256 + byte 3)) with
          reservation := some (a / 8) } : Engine).advance)) ∧
    (a < 0x40000 → a % 4 = 0 → s.spadBadAt e a = false → s.watchAt e a false = none →
      s.weakAt (.scratchpad e (a / 8 * 8)) ≠ .corrected →
      s.retires (.ll e rd ra imm) e (fun x =>
        ({ x.setG rd (BitVec.ofNat 32 (byte 0 * 16777216 + byte 1 * 65536 + byte 2 * 256 + byte 3)) with
          reservation := some (a / 8) } : Engine).advance)) ∧
    (a < 0x40000 → a % 4 = 0 → (s.eng e).reservation ≠ some (a / 8) →
      s.retires (.sc e rd ra imm) e (fun x => ({ x.setG rd 0 with reservation := none } : Engine).advance)) ∧
    (a < 0x40000 → a % 4 = 0 → (s.eng e).reservation = some (a / 8) → s.spadBadAt e a = false →
      s.watchAt e a true = none →
      s.storesAs (.sc e rd ra imm) e a 4 ((s.eng e).g rd).toNat
        (fun x => ({ x.setG rd 1 with reservation := none } : Engine).advance))

/-- The accesses through the parameter window (R350, R265). -/
def Obligations.WindowAccesses : Prop :=
  ∀ (s : State) (e rd ra : Nat) (imm : BitVec 16) (pa o : Nat) (p : Place),
    s.quiet e = true → e < 64 → rd < 32 → ra < 32 →
    ((s.eng e).g ra + imm.signExtend 32).toNat = 0x80000000 + pa → pa < 0x11000000 → pa % 4 = 0 →
    placeOf pa = some (p, o) → s.unacked (pavilionPort (e / 8)) < 64 → s.portTakes (pavilionPort (e / 8)) (portOf p) = true →
    let key := series (pavilionPort (e / 8)) (portOf p)
    let pkt := fun (kind : RwKind) (data : Word) => ({
      pri := s.rf (aEng e) 1 0, kind := kind, dst := portOf p, src := pavilionPort (e / 8),
      seq := Table.get (fun _ => 0) s.rw.nextSeq key, addr := BitVec.ofNat 32 pa, data := data } : RwPkt)
    let sent := fun (t : State) (kind : RwKind) (use : RwUse) (data : Word) =>
      t.rw.outstanding = s.rw.outstanding ++
        [({ pkt := pkt kind data, use := use, eng := some e, sentAt := s.now, firstAt := s.now } : Outstanding)] ∧
        t.rw.air = s.rw.air ++ [pkt kind data] ∧
      Table.get (fun _ => 0) t.rw.nextSeq key = Table.get (fun _ => 0) s.rw.nextSeq key + 1 ∧ t.spad = s.spad
    (openTo p false = true → ∃ t, exec (.ldw e rd ra imm) s = .next t ∧ sent t .read (.load rd) 0 ∧
      t.eng e = { s.atIssue e with wait := some (.load rd) }) ∧
    (openTo p true = true → ∃ t, exec (.stws e rd ra imm) s = .next t ∧ sent t .write .store ((s.eng e).g rd) ∧
      t.eng e = { s.atIssue e with wait := some .store }) ∧
    (openTo p true = true → ∃ t, exec (.stw e rd ra imm) s = .next t ∧ sent t .posted .posted ((s.eng e).g rd) ∧
      t.eng e = (s.atIssue e).advance)

/-- The branches and jumps (R351, R364). `d` is the depth the jump leaves. -/
def Obligations.BranchesAndJumps : Prop :=
  ∀ (s : State) (e rd ra rb d : Nat) (off : BitVec 16) (far : BitVec 26),
    s.quiet e = true → e < 64 → rd < 32 → ra < 32 → rb < 32 →
    let x := s.eng e
    let a := x.g ra
    let b := x.g rb
    let pc := x.ctx.pc
    let near := (((pc + 4 : Nat) + 4 * off.toInt) % 4294967296).toNat
    let wide := (((pc + 4 : Nat) + 4 * far.toInt) % 4294967296).toNat
    let stays := fun (target : Nat) =>
      d = x.ctx.depth ∧ (x.ctx.depth = 0 ∨ x.inBody (x.ctx.depth - 1) pc = false ∨ x.inBody (x.ctx.depth - 1) target = true)
    let pops := fun (target : Nat) =>
      0 < x.ctx.depth ∧ x.inBody (x.ctx.depth - 1) pc = true ∧ x.inBody (x.ctx.depth - 1) target = false ∧
      d < x.ctx.depth ∧ (∀ k, d ≤ k → k < x.ctx.depth → x.inBody k target = false) ∧
      (d = 0 ∨ x.inBody (d - 1) target = true)
    let goes := fun (i : Instr) (target : Nat) (link : Engine → Engine) =>
      stays target ∨ pops target → s.retires i e (fun y => link { y with ctx := { y.ctx with pc := target, depth := d } })
    let onward := fun (i : Instr) => s.retires i e Engine.advance
    x.atBodyEnd = false →
    (a = b → goes (.beq e ra rb off) near id ∧ onward (.bne e ra rb off)) ∧
    (a ≠ b → goes (.bne e ra rb off) near id ∧ onward (.beq e ra rb off)) ∧
    (a.toInt < b.toInt → goes (.blt e ra rb off) near id ∧ onward (.bge e ra rb off)) ∧
    (b.toInt ≤ a.toInt → goes (.bge e ra rb off) near id ∧ onward (.blt e ra rb off)) ∧
    (a.toNat < b.toNat → goes (.bltu e ra rb off) near id ∧ onward (.bgeu e ra rb off)) ∧
    (b.toNat ≤ a.toNat → goes (.bgeu e ra rb off) near id ∧ onward (.bltu e ra rb off)) ∧
    goes (.j e far) wide id ∧
    goes (.jal e far) wide (fun y => y.setG 31 (BitVec.ofNat 32 (pc + 4))) ∧
    goes (.jr e ra) a.toNat id ∧
    goes (.jalr e rd ra) a.toNat (fun y => y.setG rd (BitVec.ofNat 32 (pc + 4)))

/-- The repeat stack (R363, R364). -/
def Obligations.RepeatLevels : Prop :=
  (∀ (s : State) (e len count : Nat) (useReg : Bool),
    s.quiet e = true → e < 64 → 1 ≤ len → len ≤ 2047 → (if useReg then count < 32 else count ≤ 4095) →
    let x := s.eng e
    let pc := x.ctx.pc
    let n := if useReg then (x.g count).toNat % 65536 else count
    (x.ctx.depth = 3 ∨ x.atBodyEnd = true → s.faults (.rpt e useReg len count) e 6 0) ∧
    (x.ctx.depth < 3 → x.atBodyEnd = false →
      (∀ k, k < x.ctx.depth → x.inBody k pc = true → pc + 4 * len ≤ (x.level k).le.toNat) →
      (n ≠ 0 → s.retires (.rpt e useReg len count) e (fun y =>
        let z := y.setLevel y.ctx.depth
          { lc := BitVec.ofNat 32 n, ls := BitVec.ofNat 32 (pc + 4), le := BitVec.ofNat 32 (pc + 4 * len) }
        { z with ctx := { z.ctx with depth := y.ctx.depth + 1, pc := pc + 4 } })) ∧
      (n = 0 → s.retires (.rpt e useReg len count) e (fun y =>
        ({ y with ctx := { y.ctx with pc := pc + 4 * len } } : Engine).advance)))) ∧
  (∀ (x : Engine) (k : Nat), x.ctx.depth ≤ 3 → x.ctx.pc < 0x40000 →
    ((∀ j, j < x.ctx.depth → (x.level j).le.toNat ≠ x.ctx.pc) →
      x.advance = { x with ctx := { x.ctx with pc := x.ctx.pc + 4 } }) ∧
    (x.ctx.depth = k + 1 → (x.level k).le.toNat = x.ctx.pc → 1 < (x.level k).lc.toNat →
      (x.advance.level k).lc = (x.level k).lc - 1 ∧ x.advance.ctx.pc = (x.level k).ls.toNat ∧
      x.advance.ctx.depth = x.ctx.depth) ∧
    (x.ctx.depth = k + 1 → (x.level k).le.toNat = x.ctx.pc → (x.level k).lc.toNat = 1 →
      x.advance = ({ x with ctx := { x.ctx with depth := k } } : Engine).advance))

/-- The accumulating instructions (R357). -/
def Obligations.AccumulatorInstructions : Prop :=
  ∀ (s : State) (e a x y su : Nat) (sh : BitVec 5), s.quiet e = true → e < 64 → a < 2 → x < 32 → y < 32 → su < 4 →
    let z := s.eng e
    let low := fun (unsigned : Bool) (w : Word) =>
      if unsigned then ((w.extractLsb' 0 16).toNat : Int) else (w.extractLsb' 0 16).toInt
    let raw := low (su = 1 ∨ su = 3) (z.g x) * low (su = 2 ∨ su = 3) (z.g y)
    let p : Int := if z.status.getLsbD 1 ∧ su = 0 then (if raw = 0x40000000 then 0x7FFFFFFF else 2 * raw) else raw
    let acc := (z.acc a).toInt
    let result := fun (i : Instr) (exact : Int) =>
      let beyond := exact < -549755813888 ∨ 549755813887 < exact
      s.retires i e (fun w =>
        let v : BitVec 40 :=
          if w.status.getLsbD 2 then BitVec.ofInt 40 (clampInt (-549755813888) 549755813887 exact)
          else BitVec.ofInt 40 exact
        ((w.setAcc a v).setStatus (if beyond then w.status ||| BitVec.ofNat 32 (2 ^ (4 + a)) else w.status)).advance)
    result (.mac e a x y su) (acc + p) ∧ result (.msu e a x y su) (acc - p) ∧ result (.mpy e a x y su) p ∧
    result (.aadd e a) (acc + (z.acc (1 - a)).toInt) ∧
    result (.ash e a sh) (if 0 ≤ sh.toInt then acc * 2 ^ sh.toInt.toNat else acc / 2 ^ (-sh.toInt).toNat) ∧
    s.retires (.aclr e a) e (fun w => (w.setAcc a 0).advance) ∧
    s.retires (.afrom e a x) e (fun w => (w.setAcc a (BitVec.ofInt 40 (z.g x).toInt)).advance)

/-- R358. -/
def Obligations.AmovExtraction : Prop :=
  ∀ (s : State) (e a x : Nat) (sh : BitVec 5), s.quiet e = true → e < 64 → a < 2 → x < 32 →
    let acc := ((s.eng e).acc a).toInt
    let v := if 0 ≤ sh.toInt then acc * 2 ^ sh.toInt.toNat else acc / 2 ^ (-sh.toInt).toNat
    s.writes (.amov e a x sh false) e x (BitVec.ofInt 32 (clampInt (-2147483648) 2147483647 v)) ∧
    s.writes (.amov e a x sh true) e x (BitVec.ofInt 32
      (clampInt (-32768) 32767 ((if (s.eng e).status.getLsbD 3 then v + 32768 else v) / 65536)))

/-- FTAP and FTAPN (R360, R361). The byte order of a halfword is the model's choice (log entry 8). -/
def Obligations.FilterTap : Prop :=
  (∀ (s : State) (e a su : Nat), s.quiet e = true → e < 64 → a < 2 → su < 4 →
    let z := s.eng e
    let g0 := z.ctx.ag0
    let g1 := z.ctx.ag1
    let half := fun k => BitVec.ofNat 32 ((s.spadByte e k).toNat * 256 + (s.spadByte e (k + 1)).toNat)
    let dst := g0.wrap (g0.ptr + 2)
    let step := fun (y : Engine) =>
      (((y.putAcc a ((y.acc a).toInt + product y.status su (half g0.ptr) (half g1.ptr))).setAg 0 g0.next).setAg 1
        g1.next).advance
    (g0.bad = true → s.faults (.ftap e a su) e 2 g0.ptr ∧ s.faults (.ftapn e a su) e 2 g0.ptr) ∧
    (g0.bad = false → g1.bad = true → s.faults (.ftap e a su) e 2 g1.ptr ∧ s.faults (.ftapn e a su) e 2 g1.ptr) ∧
    (g0.bad = false → g1.bad = false → s.spadBadAt e g0.ptr = false → s.spadBadAt e g1.ptr = false →
      s.watchAt e g0.ptr false = none → s.watchAt e g1.ptr false = none →
      s.delivers (.ftapn e a su) e step ∧
      (s.spadBadAt e dst = false → s.watchAt e dst true = none → ∃ t, exec (.ftap e a su) s = .next t ∧
        t.eng e = step (({ s.atIssue e with oldCode := (s.atIssue e).oldCode ++
          [(dst, s.spadByte e dst, 8), (dst + 1, s.spadByte e (dst + 1), 8)] } : Engine).clearRes dst) ∧
        t.spadByte e dst = s.spadByte e g0.ptr ∧ t.spadByte e (dst + 1) = s.spadByte e (g0.ptr + 1) ∧
        (∀ k, k ≠ e * 262144 + dst → k ≠ e * 262144 + dst + 1 →
          Table.get (fun _ => 0) t.spad k = Table.get (fun _ => 0) s.spad k)) ∧
      (s.weakAt (.scratchpad e (g0.ptr / 8 * 8)) ≠ .corrected → s.weakAt (.scratchpad e (g1.ptr / 8 * 8)) ≠ .corrected →
        s.retires (.ftapn e a su) e step ∧
        (s.spadBadAt e dst = false → s.watchAt e dst true = none →
          s.storesAs (.ftap e a su) e dst 2 (half g0.ptr).toNat (fun y => step (y.clearRes dst))))) ∧
    (g0.bad = false → g1.bad = false → s.spadBadAt e g0.ptr = true →
      s.faults (.ftap e a su) e 8 g0.ptr ∧ s.faults (.ftapn e a su) e 8 g0.ptr) ∧
    (g0.bad = false → g1.bad = false → s.spadBadAt e g0.ptr = false → s.spadBadAt e g1.ptr = true →
      s.faults (.ftap e a su) e 8 g1.ptr ∧ s.faults (.ftapn e a su) e 8 g1.ptr)) ∧
  (∀ g : AddrGen,
    (g.bad = true ↔ g.ptr % 2 = 1 ∨ g.len % 2 = 1 ∨
      (g.len ≠ 0 ∧ (g.len ≤ g.step.natAbs ∨ g.ptr < g.base ∨ g.base + g.len ≤ g.ptr))) ∧
    g.next = { g with ptr := g.wrap (g.ptr + g.step) }) ∧
  (∀ (g : AddrGen) (v : Int),
    (g.len = 0 → (g.wrap v : Int) = v % 262144) ∧
    (g.len ≠ 0 → (g.base + g.len : Nat) ≤ v → v - g.len < 262144 → 0 ≤ v - g.len → (g.wrap v : Int) = v - g.len) ∧
    (g.len ≠ 0 → v < g.base → 0 ≤ v + g.len → v + g.len < 262144 → (g.wrap v : Int) = v + g.len) ∧
    (g.len ≠ 0 → g.base ≤ v → v < (g.base + g.len : Nat) → v < 262144 → (g.wrap v : Int) = v))

/-- MFC and MTC (R348). -/
def Obligations.ControlRegisters : Prop :=
  ∀ (s : State) (e r n : Nat), s.quiet e = true → e < 64 → r < 32 →
    let x := s.eng e
    let v := x.g r
    let p := v.toNat % 262144
    let reads := fun (m : Nat) (w : Word) => s.writes (.mfc e r m) e r w
    let sets := fun (m : Nat) (f : Engine → Engine) => s.retires (.mtc e r m) e (fun y => (f y).advance)
    reads 0 (BitVec.ofNat 32 x.ctx.pc) ∧ reads 1 x.status ∧ reads 2 x.epc ∧ reads 3 x.estat ∧ reads 4 x.ecause ∧
    reads 5 (s.reg (aEng e + 0x24)) ∧ reads 6 (s.reg (aEng e + 0x20)) ∧ reads 7 (s.reg (aEng e + 0x2C)) ∧
    (n < 3 → reads (16 + n) (x.level n).lc ∧ reads (19 + n) (x.level n).ls ∧ reads (22 + n) (x.level n).le) ∧
    reads 25 (BitVec.ofNat 32 x.ctx.depth) ∧
    (n < 6 → reads (26 + n) (Table.get (fun _ => 0) x.ctx.resd n)) ∧
    s.retires (.mfc e r 40) e (fun y => ({ y with tlatch := s.localTime }.setG r (fpSf s.tb.fp)).advance) ∧
    (41 ≤ n → n ≤ 44 → reads n (x.tlatch.getD (n - 40) 0)) ∧
    (36 ≤ n → n < 40 ∨ 45 ≤ n → reads n 0 ∧ s.faults (.mtc e r n) e 1 0) ∧
    (n = 0 ∨ n = 25 ∨ (40 ≤ n ∧ n ≤ 44) → s.faults (.mtc e r n) e 1 0) ∧
    sets 1 (fun y => y.setStatus ((v &&& 0xF) ||| (y.status &&& v &&& 0x30))) ∧
    sets 2 (fun y => { y with epc := v }) ∧ sets 3 (fun y => { y with estat := v }) ∧
    sets 4 (fun y => { y with ecause := v }) ∧
    (n < 2 → sets (8 + 4 * n) (fun y => y.setAg n { y.ag n with ptr := p }) ∧
      sets (9 + 4 * n) (fun y => y.setAg n { y.ag n with step := v.toInt }) ∧
      sets (10 + 4 * n) (fun y => y.setAg n { y.ag n with base := p }) ∧
      sets (11 + 4 * n) (fun y => y.setAg n { y.ag n with len := p })) ∧
    (n < 3 → sets (16 + n) (fun y => y.setLevel n { y.level n with lc := v }) ∧
      sets (19 + n) (fun y => y.setLevel n { y.level n with ls := v }) ∧
      sets (22 + n) (fun y => y.setLevel n { y.level n with le := v })) ∧
    (n < 6 → sets (26 + n) (fun y =>
      { y with ctx := { y.ctx with resd := Table.set (fun _ => 0) y.ctx.resd n v } }))

/-- TEXIT and YIELD (R366, R370, R382, R387). -/
def Obligations.ThreadEnds : Prop :=
  ∀ (s : State) (e : Nat), s.quiet e = true → s.weak = [] → e < 64 →
    let x := s.eng e
    let t0 := x.thread
    let switched := fun (t : State) =>
      (t.eng e).reservation = none ∧
      (∀ u c, x.staged = some (u, c) → x.stagedReady = true →
        (t.eng e).ctx = c ∧ (t.eng e).thread = u ∧ (t.eng e).tvalid = true ∧ (t.eng e).st = .run ∧
        (t.eng e).bank = !x.bank ∧ (t.eng e).staged = none) ∧
      (x.stagedReady = false → (t.eng e).st = .idle ∧ (t.eng e).tvalid = false ∧ (t.eng e).ctx = x.ctx)
    let other := ∀ u c, x.staged = some (u, c) → u ≠ t0
    (x.handler = true → (∀ rd ra, rd < 32 → ra < 32 → s.faults (.post e rd ra) e 1 0) ∧ s.faults (.texit e) e 1 0 ∧
      s.faults (.yield e) e 1 0) ∧
    (x.handler = false → x.atBodyEnd = false →
      (∃ t, exec (.texit e) s = .next t ∧ switched t ∧
        (x.tvalid = true → (s.thread t0).st = .running → (s.thread t0).pend = 0 → s.thFlowEn t0 = false → other →
          (t.thread t0).st = .idle ∧ (t.thread t0).saved = false)) ∧
      (x.tvalid = true → s.thCtxEn t0 = true → (s.thread t0).st = .running → other →
        ∃ t, exec (.yield e) s = .next t ∧ switched t ∧ (t.thread t0).st = .ready ∧ (t.thread t0).saved = true ∧
          t.level (s.thPri t0) = s.level (s.thPri t0) ++ [t0] ∧
          Table.get (fun _ => {}) t.dsp.saves t0 = { x.ctx with pc := x.advance.ctx.pc }))

/-- RETI (R368), WDK (R371), PUB (R373), FENCE (R350), POST (R367), BRK (R370, R372). -/
def Obligations.SystemInstructions : Prop :=
  ∀ (s : State) (e rd ra flags : Nat), s.quiet e = true → e < 64 → rd < 32 → ra < 32 → flags < 32 →
    let x := s.eng e
    let res := aEng e + 0x100
    (x.atBodyEnd = false → x.stagedReady = false → ∃ t, exec (.reti e) s = .next t ∧
      (∀ r, (t.eng e).g r = if 28 ≤ r ∧ r ≤ 31 then x.shadow.getD (r - 28) 0 else x.g r) ∧
      (t.eng e).shadow = [x.g 28, x.g 29, x.g 30, x.g 31] ∧ (t.eng e).status = x.estat &&& 0x3F ∧
      (t.eng e).ctx.pc = x.epc.toNat ∧ (t.eng e).handler = false ∧
      (t.eng e).st = (if x.fromIdle then .idle else .run)) ∧
    s.retires (.wdk e) e (fun y =>
      ({ y with wdog := s.rf (aEng e + 0x30) 15 0 * 1000 * 2 ^ 40 } : Engine).advance) ∧
    (∃ t, exec (.pub e flags) s = .next t ∧ t.eng e = (s.atIssue e).advance ∧
      (flags % 2 = 0 → t.reg res = s.reg res &&& 0x7FFFFFFF ∧ ∀ k, k < 6 → t.reg (res + 4 + 4 * k) = s.reg (res + 4 + 4 * k)) ∧
      (flags % 2 = 1 → bit (t.reg res) 31 = true ∧ bit (t.reg res) 30 = decide (flags / 2 % 2 = 1) ∧
        fld (t.reg res) 15 0 = (fld (s.reg res) 15 0 + 1) % 65536 ∧
        ∀ k, k < 6 → t.reg (res + 4 + 4 * k) = Table.get (fun _ => 0) x.ctx.resd k)) ∧
    (s.postedOpen e = false → s.retires (.fence e) e Engine.advance) ∧
    (s.postedOpen e = true → s.retires (.fence e) e (fun y => { y with wait := some .fence })) ∧
    (x.handler = false → s.postHeld (.engine e) = false → ∃ t, exec (.post e rd ra) s = .next t ∧
      t.eng e = { s.atIssue e with wait := some (.post rd) } ∧
      t.dsp.intake = s.dsp.intake ++
        [{ src := .engine e, thread := (x.g ra).toNat % 8192, info := BitVec.ofNat 32 (0x20000000 + e) }]) ∧
    (s.attached e = true → ∃ t, exec (.brk e) s = .next t ∧ (t.eng e).st = .monitor ∧ (t.eng e).reservation = none ∧
      (t.eng e).ctx.pc = x.ctx.pc + 4 ∧ (t.eng e).ctx.g = x.ctx.g) ∧
    (s.attached e = false → s.faults (.brk e) e 9 0)

/-- Faults and traps of an engine (R370, R391). -/
def Obligations.FaultsAndTraps : Prop :=
  ∀ (s : State) (e cause addr : Nat), e < 64 → 1 ≤ cause → cause ≤ 9 →
    let x := s.eng e
    let t := s.engineFault e cause addr
    t.spad = s.spad ∧
    (s.rb (aEng e) 4 = true → x.status.getLsbD 0 = true → cause ≠ 7 → cause ≠ 8 →
      (t.eng e).st = .run ∧ (t.eng e).epc = BitVec.ofNat 32 x.ctx.pc ∧ (t.eng e).ecause = BitVec.ofNat 32 cause ∧
      (t.eng e).estat = x.status ∧ (t.eng e).status.getLsbD 0 = false ∧ (t.eng e).reservation = none ∧
      (t.eng e).ctx.pc = ((s.reg (aEng e + 0x2C)).toNat + 0x100) % 2 ^ 32 ∧ (t.eng e).handler = true ∧
      (∀ r, (t.eng e).g r = if 28 ≤ r ∧ r ≤ 31 then x.shadow.getD (r - 28) 0 else x.g r)) ∧
    (s.rb (aEng e) 4 = false ∨ x.status.getLsbD 0 = false ∨ cause = 7 ∨ cause = 8 →
      (t.eng e).st = .fault ∧ fld (t.reg (aEng e + 0x10)) 31 28 = cause ∧ bit (t.reg (aEng e + 0x10)) 27 = true ∧
      fld (t.reg (aEng e + 0x10)) 15 0 = Min.min 65535 (fld (s.reg (aEng e + 0x10)) 15 0 + 1) ∧
      t.reg (aEng e + 0x14) = BitVec.ofNat 32 x.ctx.pc ∧
      t.reg (aEng e + 0x18) = (if cause ∈ [2, 3, 4, 5, 8] then BitVec.ofNat 32 addr else s.reg (aEng e + 0x18)) ∧
      (x.tvalid = true → x.staged = none → (s.thread x.thread).st = .running ∨ (s.thread x.thread).st = .ending →
        (t.thread x.thread).st = .halted ∧ (t.thread x.thread).failed = true))

/-- TH_CFG.EN (R376, R377) and DSP_CTRL.EN (R393). -/
def Obligations.DispatcherEnables : Prop :=
  ∀ (s : State) (who : Accessor) (t : Nat) (value : Word), Accessor.ok who = true → s.weak = [] → t < 8192 →
    let on := value ||| 0x80000000
    (s.mayAccess who true (aThread t) = true →
      (s.thEn t = false → ∃ u, exec (.threadEnable who t value) s = .next u ∧
        ((s.threadCheck t on).1 = 0 → bit (u.reg 0xC00004) 30 = true ∧ u.reg (aThread t) = on &&& 0xFFFF3FFF ∧
          ((s.thread t).st ≠ .ending → (u.thread t).st = .idle)) ∧
        ((s.threadCheck t on).1 ≠ 0 → u.reg (aThread t) = s.reg (aThread t) ∧ u.thread t = s.thread t ∧
          fld (u.reg 0xC00004) 23 16 = (s.threadCheck t on).1.toNat ∧ bit (u.reg 0xC00004) 30 = false)) ∧
      (s.thEn t = true → ∃ u, exec (.threadDisable who t value) s = .next u ∧ u.thEn t = false ∧
        ((s.thread t).st = .idle →
          (u.thread t).st = .disabled ∧ (u.thread t).pend = 0 ∧ (u.thread t).saved = false) ∧
        ((s.thread t).st = .running → (u.thread t).st = .ending ∧ (u.thread t).pend = 0))) ∧
    (s.mayAccess who true 0xC00000 = true →
      (s.dspEn = false → ∃ u, exec (.dispatcherEnable who value) s = .next u ∧ u.dspEn = true ∧
        bit (u.reg 0xC00004) 30 = true ∧ u.dsp = s.dsp) ∧
      (s.dspEn = true → (∃ e, e < 64 ∧ (s.eng e).st ≠ .stopped) → exec (.dispatcherDisable who value) s = .next s) ∧
      (s.dspEn = true → (∀ e, e < 64 → (s.eng e).st = .stopped) →
        ∃ u, exec (.dispatcherDisable who value) s = .next u ∧ u.dspEn = false ∧ u.dsp.flows = [] ∧
          (s.thEn t = true → (s.thread t).st ≠ .disabled →
            (u.thread t).st = .idle ∧ (u.thread t).pend = 0 ∧ (u.thread t).saved = false ∧ (u.thread t).failed = false)))

/-- Posts (R380, R381), the snapshot (R395, R88), ACCEPT (R394) and ENG_IRQ_SET (R368). -/
def Obligations.PostsAndSnapshots : Prop :=
  (∀ (s : State) (t : Nat) (info : Word), s.weak = [] →
    let r := s.decidePost t info
    (s.dspEn = false ∨ (s.thread t).st ∈ [ThState.disabled, .halted, .ending] →
      r.1 = false ∧ r.2 = (s.addCnt 0xC00024 1).traceMake 2 0 0x11 (w32 t) info) ∧
    (s.dspEn = true → (s.thread t).st = .idle → s.thFlowEn t = false →
      r.1 = true ∧ (r.2.thread t).st = .ready ∧ (r.2.thread t).info = info ∧
      r.2.level (s.thPri t) = s.level (s.thPri t) ++ [t]) ∧
    (s.dspEn = true → (s.thread t).st ∈ [ThState.ready, .flowWait, .staged, .running] →
      (s.thPmax t = 0 → r.1 = true ∧ r.2.thread t = s.thread t ∧ r.2.reg 0xC00028 = satAdd (s.reg 0xC00028) 1) ∧
      (0 < s.thPmax t → (s.thread t).pend < s.thPmax t → r.1 = true ∧ (r.2.thread t).pend = (s.thread t).pend + 1) ∧
      (0 < s.thPmax t → s.thPmax t ≤ (s.thread t).pend → r.1 = false ∧ r.2 = (s.addCnt 0xC00024 1).traceMake 2 0 0x11 (w32 t) info))) ∧
  (∀ (s : State) (who : Accessor) (value : Word), Accessor.ok who = true →
    (s.mayAccess who true 0xC00010 = true → value.toNat < 8192 →
      (s.dsp.intake = [] → s.dsp.held = [] → 0 < s.postRoom →
        exec (.dspPostWrite who value) s = .next (s.noteDecided.decidePost value.toNat 0x60000000).2) ∧
      (s.dsp.held ≠ [] ∨ s.postRoom ≤ s.dsp.intake.length →
        ∃ u r, exec (.dspPostWrite who value) s = .next u ∧ u = { s with dsp := { s.dsp with held := s.dsp.held ++ [r] } } ∧
          r.addr = 0xC00010 ∧ r.write = true ∧ r.data = value)) ∧
    (s.mayAccess who true 0xC00014 = true → ∃ u, exec (.snapshotTake who value) s = .next u ∧
      bit (u.reg 0xC01000) 31 = true ∧ fld (u.reg 0xC01000) 15 0 = (fld (s.reg 0xC01000) 15 0 + 1) % 65536 ∧
      (∀ l, l < 32 → u.reg (0xC01004 + 16 * l) = BitVec.ofNat 32 (s.lvlStat l).stagings) ∧
      (bit value 1 = true → u.dsp.levelStats = [] ∧ u.dsp.restartedAt = s.now) ∧
      (bit value 1 = false → u.dsp = s.dsp)) ∧
    (∀ p, p < 8 → s.mayAccess who true (aPav p) = true →
      ∃ u, exec (.acceptWrite who p value) s = .next u ∧ u.reg (aPav p) = value &&& 0xFF) ∧
    (∀ e, e < 64 → s.mayAccess who true (aEng e + 0x28) = true →
      exec (.engIrqSetWrite who e value) s =
        .next (s.setReg (aEng e + 0x24) ((s.reg (aEng e + 0x24) ||| (value &&& 0xFFFF)) &&& 0xFFFF)))) ∧
  (∀ (s : State) (dt e rd t : Nat) (info : Word),
    let s' := s.advance dt
    s'.live = true → s'.dsp.intake = [{ src := .engine e, thread := t, info := info }] →
    (s'.eng e).wait = some (.post rd) → (s'.eng e).st = .run → (s'.eng e).stopPending = false →
    (s'.eng e).dbg.stepping = false → (s'.eng e).dbg.haltPending = false → (s'.eng e).dbg.watchHit = none → 0 < s'.postRoom →
    let r := ({ s' with dsp := { s'.dsp with intake := [] } } : State).noteDecided.decidePost t info
    ∃ u, exec (.postDecision dt) s = .next u ∧
      u.eng e = (({ s'.eng e with wait := none } : Engine).setG rd (if r.1 then 1 else 0)).advance ∧
      u.dsp = r.2.dsp)

/-- Engine events (R368, R371, R384-R387). -/
def Obligations.EngineEvents : Prop :=
  ∀ (s : State) (e p t dt : Nat), s.weak = [] → e < 64 → p < 8 → t < 8192 →
    let s' := s.advance dt
    let x := s'.eng e
    s'.live = true →
    (∀ i, s'.irqInput e = some i → ∃ u, exec (.interruptEntry e dt) s = .next u ∧
      bit (u.reg (aEng e + 0x24)) i = bit (Table.get (fun _ => 0) s'.tick.set (State.aAgain e)) i ∧
      (dt ≠ 0 → bit (u.reg (aEng e + 0x24)) i = false) ∧ (u.eng e).epc = BitVec.ofNat 32 x.ctx.pc ∧ (u.eng e).estat = x.status ∧
      (u.eng e).status.getLsbD 0 = false ∧ (u.eng e).reservation = none ∧ (u.eng e).st = .run ∧
      (u.eng e).ctx.pc = ((s'.reg (aEng e + 0x2C)).toNat + 16 * i) % 2 ^ 32 ∧ (u.eng e).handler = true ∧
      (∀ r, (u.eng e).g r = if 28 ≤ r ∧ r ≤ 31 then x.shadow.getD (r - 28) 0 else x.g r)) ∧
    (∀ i, s'.irqInput e = some i → i < 16 ∧ bit (s'.reg (aEng e + 0x24)) i = true ∧ bit (s'.reg (aEng e + 0x20)) i = true ∧
      ∀ j, j < i → bit (s'.reg (aEng e + 0x24)) j = false ∨ bit (s'.reg (aEng e + 0x20)) j = false) ∧
    (x.st = .run → s'.rf (aEng e + 0x30) 15 0 ≠ 0 → x.wdog = 0 →
      exec (.engineWatchdogExpiry e dt) s = .next ((s'.enterFault e 7 0).settle e) ∧
      (x.stopPending = false → exec (.engineWatchdogExpiry e dt) s = .next (s'.enterFault e 7 0)) ∧
      (x.stopPending = true → ∃ u, exec (.engineWatchdogExpiry e dt) s = .next u ∧ (u.eng e).st = .stopped ∧
        (u.eng e).stopPending = false)) ∧
    (s'.dspEn = true → (∀ k, k < 8 → s'.engOpen (8 * p + k) = false ∨ s'.bestFor (8 * p + k) = none) →
      exec (.stagingDecision p dt) s = .next s') ∧
    (∀ k u, s'.dspEn = true → k < 8 → s'.engOpen (8 * p + k) = true → s'.bestFor (8 * p + k) = some u →
      (∀ j, j < k → s'.engOpen (8 * p + j) = false ∨ s'.bestFor (8 * p + j) = none) →
      ∃ v, exec (.stagingDecision p dt) s = .next v ∧ (v.thread u).st = .staged ∧ (v.thread u).engine = 8 * p + k ∧
        (v.eng (8 * p + k)).staged = some (u, s'.freshCtx u) ∧ (v.eng (8 * p + k)).stagedReady = false) ∧
    (∀ u c, x.staged = some (u, c) → x.stagedReady = false → (s'.thread u).saved = false →
      ∃ v, exec (.contextStaged e dt) s = .next v ∧
        (x.st = .run → (v.eng e).staged = some (u, c) ∧ (v.eng e).stagedReady = true ∧ (v.eng e).ctx = x.ctx) ∧
        (x.st = .idle → (v.eng e).st = .run ∧ (v.eng e).ctx = c ∧ (v.eng e).thread = u ∧ (v.thread u).st = .running)) ∧
    ((s'.thread t).writing = true → ∃ v, exec (.contextWritebackEnd t dt) s = .next v ∧ (v.thread t).writing = false ∧
      (v.thread t).st = (s'.thread t).st) ∧
    exec (.affinityWaitExpiry t dt) s = .next s'

/-- R62 (but for its last sentence, which is about the resets' statements), R63: where GH_WDOG_PERIOD's write,
WATCHDOG_KICK and WATCHDOG_EXPIRY complete. The least period of 10 ms is that of the register's own row. -/
def Obligations.DeviceWatchdog : Prop :=
  (∀ (s : State) (who : Accessor) (value : Word), Accessor.ok who = true → s.mayAccess who true 0x10010 = true →
    (fld value 15 0 = 0 → exec (.ghWdogPeriodWrite who value) s = .next s) ∧
    (fld value 15 0 ≠ 0 → s.completes (.ghWdogPeriodWrite who value) (fun t =>
      s.onlyGhRegs t [0x10010] ∧ t.reg 0x10010 = w32 (max 10 (fld value 15 0)) ∧
      t.gh = { s.gh with wdog := max 10 (fld value 15 0) * 1000000000 }))) ∧
  (∀ (s : State) (h : Hdr), s.runs 0x7E h [] = true →
    s.replies (.watchdogKick h) 0x7E h 0 0 [] (fun t => s.onlyGatehouse t ∧
      t.gh.wdog = fld (s.reg 0x10010) 15 0 * 1000000000)) ∧
  (∀ (s : State) (dt : Nat),
    let s' := s.advance dt
    s'.pwr.held = false → fld (s'.reg 0x10010) 15 0 ≠ 0 → s'.gh.wdog = 0 →
    s.completes (.watchdogExpiry dt) (fun t =>
      bit (t.reg 0x10000) 11 = true ∧ t.gh.wdog = fld (s'.reg 0x10010) 15 0 * 1000000000 ∧
      (s'.log.entries.length < 1024 → t.log.entries.length = s'.log.entries.length + 1 ∧ t.gh.alert = true) ∧
      t.mode = s'.mode ∧ t.gh.held = s'.gh.held ∧ t.gh.running = s.gh.running ∧ t.gh.cache = s'.gh.cache ∧
      t.engines = s'.engines ∧ t.tb = s'.tb ∧
      (∀ a, a ≠ 0x10000 → a ≠ 0x18 → a ≠ 0xD00000 → t.reg a = s'.reg a)))

/-- R96; PING by the table of opcodes (R65). -/
def Obligations.IdentifyAndStatus : Prop :=
  ∀ (s : State) (h : Hdr) (ws : List Word),
    (s.runs 0x02 h [] = true → s.replies (.identify h) 0x02 h 0 0
      [s.peek 0x00, s.peek 0x04, s.peek 0x08, s.peek 0x0C, s.peek 0x1C, s.peek 0x20, s.peek 0x24, s.peek 0x10]
      (fun t => s.onlyGatehouse t)) ∧
    (s.runs 0x03 h [] = true → s.replies (.status h) 0x03 h 0 0
      [s.peek 0x10, s.peek 0x18, s.peek 0x28, s.peek 0x10000] (fun t => s.onlyGatehouse t)) ∧
    (s.runs 0x01 h ws = true → s.replies (.ping h ws) 0x01 h 0 0 ws (fun t => s.onlyGatehouse t))

/-- R66, R67, R81, R84. -/
def Obligations.RegisterAccess : Prop :=
  (∀ (s : State) (h : Hdr) (who : Accessor) (addr mask value : Word) (p : Place) (o : Nat),
    placeOf addr.toNat = some (p, o) → (p = .device ∨ ∃ b, p = .bank b) →
    let a := addr.toNat
    let sp := specIn p o
    let put := fun (v : Word) => (s.reg a &&& ~~~sp.rw &&& ~~~(sp.w1c &&& v &&& ~~~s.setNow a)) ||| (v &&& sp.rw) ||| (sp.w1s &&& v)
    let m := ((s.peek a &&& ~~~mask) &&& ~~~(sp.w1c ||| sp.w1s)) ||| (value &&& mask)
    let sent := s.hubSent 0x200 (portOf p)
    let may := fun (write : Bool) => s.paramCheck write [a] = 0 ∧ s.accessError 0x200 p o = 0
    (Accessor.ok who = true → s.mayAccess who true a = true → s.completes (.registerWrite who addr value) (fun t =>
      s.onlyRegs t [a] ∧ t.reg a = put value)) ∧
    (may false → s.runs 0x10 h [addr] = true → s.replies (.paramRead h addr) 0x10 h 0 0 [s.peek a] (fun t =>
      sent.onlyGhRegs t [a] ∧ t.reg a = s.reg a &&& ~~~sp.rc)) ∧
    (may true → s.runs 0x11 h [addr, value] = true → s.replies (.paramWrite h addr value) 0x11 h 0 0 [] (fun t =>
      sent.onlyGhRegs t [a] ∧ t.reg a = put value)) ∧
    (may true → s.runs 0x12 h [addr, mask, value] = true →
      s.replies (.paramModify h addr mask value) 0x12 h 0 0 [s.peek a] (fun t =>
        sent.onlyGhRegs t [a] ∧ t.reg a = put m)) ∧
    (may false → s.runs 0x13 h [addr, 1] = true → s.replies (.paramReadBlock h addr 1) 0x13 h 0 0 [s.peek a] (fun t =>
      sent.onlyGhRegs t [a] ∧ t.reg a = s.reg a &&& ~~~sp.rc)) ∧
    (may true → s.runs 0x14 h [addr, value] = true → s.replies (.paramWriteBlock h addr [value]) 0x14 h 0 0 [] (fun t =>
      sent.onlyGhRegs t [a] ∧ t.reg a = put value))) ∧
  (∀ (s : State) (who : Accessor) (addr : Word) (p : Place) (o : Nat), placeOf addr.toNat = some (p, o) →
    s.latched p o = none → (∀ i, p ≠ .cistern i) → (∀ r, p ≠ .orchard r) → Accessor.ok who = true →
    s.mayAccess who false addr.toNat = true → s.weak = [] →
    let a := addr.toNat
    let same := Table.get (fun _ => none) s.tick.counted a
    ((∀ e, p = .engine e → o ≠ 0x44 ∧ o ≠ 0x48) →
      s.completes (.rcRead who addr) (fun t =>
        s.onlyRegs t [a] ∧
        (same = none → (s.readWord a).1 = s.peek a ∧ t.reg a = s.reg a &&& ~~~(specIn p o).rc) ∧
        (∀ w n, same = some (w, n) → (specIn p o).rc ≠ 0 → (s.readWord a).1 = w ∧
          t.reg a = (s.reg a &&& ~~~(specIn p o).rc) ||| (satAdd 0 n &&& (specIn p o).rc)))) ∧
    (∀ e, p = .engine e → o = 0x44 ∨ o = 0x48 → same = none → s.completes (.rcRead who addr) (fun t =>
      (s.readWord a).1 = s.peek a ∧ t.peek a = 0 ∧ t.regs = s.regs)))

/-- R67, R77, R80, R30. -/
def Obligations.AccessesRefused : Prop :=
  ∀ (s : State) (h : Hdr) (addr n value : Word) (vs : List Word) (p : Place) (o : Nat),
    (n = 0 ∨ 4096 < n.toNat → s.runs 0x13 h [addr, n] = true →
      s.replies (.paramReadBlock h addr n) 0x13 h 2 2 [] (fun t => s.onlyGatehouse t)) ∧
    (s.runs 0x14 h (addr :: vs) = true →
      (∃ k o, k < vs.length ∧ placeOf (addr.toNat + 4 * k) = some (.cairns, o)) →
      s.replies (.paramWriteBlock h addr vs) 0x14 h 2 9 [] (fun t => s.onlyGatehouse t)) ∧
    (placeOf addr.toNat = some (p, o) → p ≠ .cairns → placeDomain p ≠ 0 → s.runs 0x11 h [addr, value] = true →
      (s.domainOn (placeDomain p) = false →
        s.replies (.paramWrite h addr value) 0x11 h 2 7 [] (fun t => s.onlyGatehouse t)) ∧
      (s.domainOn (placeDomain p) = true → s.fenced (placeDomain p) = true →
        s.replies (.paramWrite h addr value) 0x11 h 2 0x1C [] (fun t => s.onlyGatehouse t))) ∧
    (placeOf addr.toNat = some (p, o) → placeDomain p ≠ 0 → s.domainOn (placeDomain p) = false → 1 ≤ n.toNat →
      n.toNat ≤ 4096 → s.runs 0x13 h [addr, n] = true →
      s.replies (.paramReadBlock h addr n) 0x13 h 2 7 [] (fun t => s.onlyGatehouse t)) ∧
    (∀ e, e < 64 → s.live = true → placeOf addr.toNat = some (p, o) → openTo p true = false →
      exec (.registerWrite (.engine e) addr value) s = .next (s.logEvent 0x20 (0x1000 + e) addr 0 (Accessor.port (.engine e))))

/-- R86, R120, R137. -/
def Obligations.LatchedGroups : Prop :=
  (∀ (s : State) (who : Accessor) (addr : Word) (p : Place) (o : Nat) (ws : List Word),
    placeOf addr.toNat = some (p, o) → s.latched p o = some (0, ws) → Accessor.ok who = true →
    s.mayAccess who false addr.toNat = true → s.completes (.latchedGroupRead who addr) (fun t =>
      t.regs = s.regs ∧ (s.readWord addr.toNat).1 = ws.getD 0 0 ∧
      (∀ k, k < ws.length → Table.get (fun _ => 0) t.latch (addr.toNat / 4 + k) = ws.getD k 0) ∧
      (∀ k, k < addr.toNat / 4 ∨ addr.toNat / 4 + ws.length ≤ k →
        Table.get (fun _ => 0) t.latch k = Table.get (fun _ => 0) s.latch k))) ∧
  (∀ (s : State) (a k : Nat) (p : Place) (o : Nat) (ws : List Word),
    placeOf a = some (p, o) → s.latched p o = some (k + 1, ws) →
    s.peek a = Table.get (fun _ => 0) s.latch (a / 4) ∧ s.readWord a = (s.peek a, s)) ∧
  (∀ (s : State) (who : Accessor), Accessor.ok who = true →
    (∀ src, src < 208 →
      let a := if src < 64 then 0x31000 + 0x20 * src else 0x100810 + 0x1000 * (src - 64)
      s.mayAccess who false a = true → s.completes (.stampRecordRead who src) (fun t =>
        (t.stampSrc src).queue = (s.stampSrc src).queue.drop 1 ∧ (s.readWord a).1 = (s.stampWords src).getD 0 0 ∧
        (∀ k, k ≠ src → t.stampSrc k = s.stampSrc k) ∧ t.regs = s.regs ∧ t.events = s.events)) ∧
    (s.mayAccess who false 0x30070 = true → s.completes (.cnEventRead who) (fun t =>
      t.events = s.events.drop 1 ∧ t.regs = s.regs ∧ t.stamps = s.stamps)))

/-- R103. -/
def Obligations.TimeCommandsNeedTheTimebase : Prop :=
  ∀ (s : State) (h : Hdr) (a b c d e : Word), bit (s.reg 0x30000) 0 = false →
    (s.runs 0x40 h [a, b, c, d, e] = true →
      s.replies (.cairnSet h a b c d e) 0x40 h 2 7 [] (fun t => s.onlyGatehouse t)) ∧
    (s.runs 0x42 h [a, b] = true → s.replies (.timeAddend h a b) 0x42 h 2 7 [] (fun t => s.onlyGatehouse t)) ∧
    (s.runs 0x43 h [a, b, c] = true → s.replies (.timeStep h a b c) 0x43 h 2 7 [] (fun t => s.onlyGatehouse t))

/-- R116, R117. -/
def Obligations.DeviceTimeCorrection : Prop :=
  ∀ (s : State) (h : Hdr) (w2 w1 w0 : Word), bit (s.reg 0x30000) 0 = true →
    (s.runs 0x42 h [w1, w0] = true →
      let a := w1.toNat * 2 ^ 32 + w0.toNat
      (2 ^ 41 - 1099511627 ≤ a ∧ a ≤ 2 ^ 41 + 1099511627 →
        s.replies (.timeAddend h w1 w0) 0x42 h 0 0 [] (fun t =>
          ({ t with gh := s.gh, tb := { t.tb with addend := s.tb.addend } } : State) = s ∧ t.tb.addend = a)) ∧
      (a < 2 ^ 41 - 1099511627 ∨ 2 ^ 41 + 1099511627 < a →
        s.replies (.timeAddend h w1 w0) 0x42 h 2 2 [] (fun t => s.onlyGatehouse t))) ∧
    (s.runs 0x43 h [w2, w1, w0] = true →
      let secs := w2.toNat % 2 ^ 31 * 65536 + w1.toNat / 65536
      let ns := w1.toNat % 65536 * 65536 + w0.toNat / 65536
      let mag := (secs * 1000000000 + ns) * 2 ^ 40 + w0.toNat % 65536 * 2 ^ 24
      let neg := decide (2 ^ 31 ≤ w2.toNat)
      (1000000000 ≤ ns ∨ (neg = true ∧ s.tb.devTime < mag) →
        s.replies (.timeStep h w2 w1 w0) 0x43 h 2 2 [] (fun t => s.onlyGatehouse t)) ∧
      (ns < 1000000000 → (neg = true → mag ≤ s.tb.devTime) →
        s.replies (.timeStep h w2 w1 w0) 0x43 h 0 0 [] (fun t =>
          ({ t with gh := s.gh, stamps := s.stamps, tb := { t.tb with devTime := s.tb.devTime } } : State) = s ∧
          (∀ src, (∀ n, (src, n) ∉ s.tick.stamped) → t.stampSrc src = s.stampSrc src) ∧
          t.tb.devTime = if neg then s.tb.devTime - mag else s.tb.devTime + mag)))

/-- R102, R108, R109, R118, R119. -/
def Obligations.TimebaseControl : Prop :=
  ∀ (s : State) (who : Accessor) (value : Word), Accessor.ok who = true → s.mayAccess who true 0x30000 = true →
    let old := s.reg 0x30000
    let sel := fld value 5 4
    (bit old 0 = false → bit value 15 = false → sel = fld old 5 4 →
      ((s.pll 15).lock = true → s.refStable (s.pllOn 15) = true →
        s.completes (.timebaseEnable who value) (fun t => bit (t.reg 0x30000) 0 = true ∧ t.tb.devTime = 0 ∧ t.tb.fp = 0 ∧
          t.tb.addend = s.tb.addend ∧ t.tb.lock = false ∧ t.cairns = s.cairns ∧ bit (t.reg 0x30004) 30 = true ∧
          t.tb.inA = s.tb.inA ∧ t.tb.inB = s.tb.inB)) ∧
      ((s.pll 15).lock = false →
        s.completes (.timebaseEnable who value) (fun t => s.onlyRegs t [0x30004] ∧
          fld (t.reg 0x30004) 23 16 = 0x11 ∧ bit (t.reg 0x30004) 30 = false))) ∧
    (bit old 0 = true →
      (s.mode = .boot ∨ s.mode = .staging →
        s.completes (.timebaseDisable who value) (fun t => bit (t.reg 0x30000) 0 = false ∧ t.tb.devTime = 0 ∧ t.tb.fp = 0 ∧
          t.tb.lock = false ∧ t.tb.history = [] ∧ t.tb.sfNum = 0 ∧ t.tb.lastUsed = 0 ∧ t.tb.inUse = none ∧
          (∀ k, t.cairn k = {}) ∧ t.tb.addend = 0x020000000000 ∧ t.tb.phaseErr = 0 ∧ fld (t.reg 0x30008) 10 7 = 0 ∧
          (∀ e, (t.eng e).tlatch = [0, 0, 0, 0, 0]) ∧ t.events = s.events ∧ t.tb.inA = s.tb.inA ∧ t.tb.inB = s.tb.inB ∧
          t.reg 0x30050 = s.reg 0x30050 ∧ t.reg 0x30054 = s.reg 0x30054)) ∧
      (s.mode ≠ .boot → s.mode ≠ .staging → exec (.timebaseDisable who value) s = .next s)) ∧
    (bit old 0 = true → bit value 0 = true → fld value 3 2 = fld old 3 2 → bit value 15 = false → sel ≠ fld old 5 4 →
      (∀ i, s.choose sel = some i → s.completes (.referenceSelection who value) (fun t =>
        t.tb.inUse = some i ∧ t.tb.lastUsed = i ∧ fld (t.reg 0x30000) 5 4 = sel ∧
        (s.tb.inUse = none → t.tb.loop = if bit value 11 then .stepWait else .tracking))) ∧
      (sel ≠ 0 → s.choose sel = none → exec (.referenceSelection who value) s = .next s) ∧
      (sel = 0 → s.tb.inUse ≠ none → s.completes (.referenceSelection who value) (fun t =>
        t.tb.inUse = none ∧ t.tb.loop = .holdover ∧ t.tb.lock = false ∧ t.reg 0x30050 = s.reg 0x30050 ∧
        t.reg 0x30008 = s.reg 0x30008 ∧ t.mode = s.mode))) ∧
    (bit old 0 = true → bit value 0 = true → fld value 3 2 = fld old 3 2 → sel = fld old 5 4 →
      (s.sfArmOk s.tb.inUse = true → s.completes (.sfArm who value) (fun t =>
        s.onlyRegs t [0x30000] ∧ bit (t.reg 0x30000) 15 = true)) ∧
      (s.sfArmOk s.tb.inUse = false → exec (.sfArm who value) s = .next s)) ∧
    (∀ i, s.choose sel = some i ↔ (sel = 3 ∨ sel = i + 1) ∧ i < 2 ∧ s.inQual i = true ∧
      (i = 1 → sel = 3 → s.inQual 0 = false))

/-- R106-R109, R112, R578. -/
def Obligations.FramePulses : Prop :=
  ∀ (s : State) (i width dt : Nat), i < 2 →
    let s' := s.advance dt
    let x := s'.tb.input i
    let rise := s'.now - width * 1000
    s'.live = true →
    (width < 20 ∨ s'.tb.watched = false → exec (.framePulse i width dt) s = .next s') ∧
    (20 ≤ width → s'.tb.watched = true → x.qualified = false →
      s.completes (.framePulse i width dt) (fun t =>
        let y := t.tb.input i
        y.lastRise = some rise ∧ y.pulse = some rise ∧
        (∀ r, x.pulse = some r → r + 124900000 ≤ rise → rise ≤ r + 125100000 →
          y.run = x.run + 1 ∧ y.qualified = decide (64 ≤ x.run + 1)) ∧
        ((x.pulse = none ∨ ∃ r, x.pulse = some r ∧ (rise < r + 124900000 ∨ r + 125100000 < rise)) →
          y.run = 0 ∧ y.qualified = false))) ∧
    (100 ≤ width → width ≤ 2000 → s'.tb.watched = true → x.qualified = true → s'.tb.inUse = some i →
      (let due := x.lastRise.getD 0 + (x.absent + 1) * 125000000
       rise + 1000000 < due ∨ due + 1000000 < rise) →
      s.completes (.framePulse i width dt) (fun t =>
        s'.onlyRegs { t with tb := s'.tb } [0x30054] ∧ t.reg 0x30054 = satAdd (s'.reg 0x30054) 1 ∧
        (t.tb.input i).pulse = some rise ∧ (t.tb.input i).lastRise = x.lastRise ∧ t.tb.rate = s'.tb.rate ∧
        t.tb.lock = s'.tb.lock ∧
        (t.tb.input i).run = (match x.pulse with
          | some r => if r + 124900000 ≤ rise ∧ rise ≤ r + 125100000 then x.run + 1 else 0
          | none => 0))) ∧
    (s'.tb.watched = true → x.qualified = true →
      x.lastRise.getD 0 + (x.absent + 1) * 125000000 + 1000000 ≤ s'.now →
      s.completes (.edgeAbsent i dt) (fun t =>
        (x.absent < 2 → t.tb.input i = { x with absent := x.absent + 1 } ∧ t.regs = s'.regs) ∧
        (2 ≤ x.absent → (t.tb.input i).qualified = false ∧ (t.tb.input i).run = x.run ∧
          (s'.tb.inUse = some i →
            (∀ j, j < 2 → j ≠ i → s'.inQual j = false ∨ (s'.refSel ≠ 3 ∧ s'.refSel ≠ j + 1)) →
            t.tb.inUse = none ∧ t.tb.loop = .holdover ∧ t.tb.lock = false ∧ t.tb.refLost = true ∧
            bit (t.reg 0x30008) 9 = true ∧ t.reg 0x30050 = satAdd (s'.reg 0x30050) 1) ∧
          (∀ j, s'.tb.inUse = some i → j < 2 → j ≠ i → s'.inQual j = true → s'.refSel = 3 →
            t.tb.inUse = some j ∧ t.tb.lastUsed = j ∧ bit (t.reg 0x30008) 10 = true ∧
            t.reg 0x30050 = s'.reg 0x30050)))) ∧
    (x.qualified = false → s'.tb.watched = true → exec (.edgeAbsent i dt) s = .next s')

/-- R120, R121 at the stamp pins; that a dropped stamp is counted in SEQ is the model's reading (log entry 10). -/
def Obligations.StampPins : Prop :=
  ∀ (s : State) (p dt : Nat) (edge : PinEdge), p < 64 →
    let falling := edge.falling
    let s' := s.advance dt
    let at_ := s'.now + 25 * fld (s'.pin (96 * (p / 16) + p % 16)).cfg 12 8
    let seen := s'.tb.ahead ((at_ + 624) / 625 * 625 - s'.now)
    let cfg := s'.reg (0x31800 + 4 * p)
    let x := s'.stampSrc p
    s'.live = true →
    (bit cfg 0 = false ∨ bit cfg (if falling then 2 else 1) = false ∨ edge.before < 1250 ∨ edge.after < 1250 →
      exec (.stampPinEdge p edge dt) s = .next s') ∧
    (bit cfg 0 = true → bit cfg (if falling then 2 else 1) = true →
      (p % 2 = 1 → s'.pinLvds (96 * (p / 16) + p % 16) = false) →
      1250 ≤ edge.before → 1250 ≤ edge.after →
      s.completes (.stampPinEdge p edge dt) (fun t =>
        (x.queue.length < 4 → t.stampSrc p = {
          queue := x.queue ++ [{ dir := falling, lost := x.lost, seq := x.count + 1, time := timeForm seen.1, fp := fpForm seen.2 }], lost := false, count := x.count + 1 }) ∧
        (4 ≤ x.queue.length → t.stampSrc p = { x with lost := true, count := x.count + 1 }) ∧
        (∀ k, k ≠ p → t.stampSrc k = s'.stampSrc k) ∧
        (bit cfg 3 = true → bit (t.reg (0x800024 + 0x10000 * fld cfg 9 4)) (fld cfg 13 10) = true ∧
          s'.onlyRegs { t with stamps := s'.stamps } [0x800024 + 0x10000 * fld cfg 9 4]) ∧
        (bit cfg 3 = false → t.regs = s'.regs)))

/-- R126, R127, R128. -/
def Obligations.CairnsAreSetAndCancelled : Prop :=
  ∀ (s : State) (h : Hdr) (index sf fp act rep : Word),
    (bit (s.reg 0x30000) 0 = true → s.runs 0x40 h [index, sf, fp, act, rep] = true →
      (∀ k, (index = 0xFFFFFFFF ∧ (∀ j, j < k → (s.cairn j).free = false) ∨ index.toNat = k) → k < 4096 →
        (s.cairn k).free = true →
        let s1 := s.setCairn k { sf := sf, fp := fp, act := act &&& 0xF8FFFFFF, rep := rep }
        (s1.cairnRefusal k = 0 → s.replies (.cairnSet h index sf fp act rep) 0x40 h 0 0 [BitVec.ofNat 32 k] (fun t =>
          (t.cairn k).sf = sf ∧ (t.cairn k).fp = fp ∧ (t.cairn k).act = act &&& 0xF8FFFFFF ∧ (t.cairn k).rep = rep ∧
          (t.cairn k).committed = false ∧ (t.cairn k).bound = false ∧ (∀ j, j ≠ k → t.cairn j = s.cairn j) ∧
          ({ t with gh := s.gh, cairns := s.cairns, tick := s.tick, weak := s.weak } : State) = s)) ∧
        (fld act 31 28 = 0 ∨ 8 < fld act 31 28 ∨ 15999 < fp.toNat / 65536 ∨ (rep.toNat < 65536 ∧ rep.toNat ≠ 0) →
          s.replies (.cairnSet h index sf fp act rep) 0x40 h 2 2 [] (fun t => s.onlyGatehouse t))) ∧
      ((index = 0xFFFFFFFF ∧ (∀ j, j < 4096 → (s.cairn j).free = false)) ∨
          (index.toNat < 4096 ∧ (s.cairn index.toNat).free = false ∧ s.cairnBad index.toNat = false) →
        s.replies (.cairnSet h index sf fp act rep) 0x40 h 2 0x31 [] (fun t => s.onlyGatehouse t)) ∧
      (index.toNat < 4096 → (s.cairn index.toNat).free = false → s.cairnBad index.toNat = true →
        s.replies (.cairnSet h index sf fp act rep) 0x40 h 3 3 [] (fun _ => True)) ∧
      (index ≠ 0xFFFFFFFF → 4095 < index.toNat →
        s.replies (.cairnSet h index sf fp act rep) 0x40 h 2 2 [] (fun t => s.onlyGatehouse t))) ∧
    (s.runs 0x41 h [index] = true →
      let k := index.toNat
      (4095 < k → s.replies (.cairnCancel h index) 0x41 h 2 2 [] (fun t => s.onlyGatehouse t)) ∧
      (k < 4096 → s.cairnBad k = true → s.replies (.cairnCancel h index) 0x41 h 3 3 [] (fun _ => True)) ∧
      (k < 4096 → s.cairnBad k = false → (s.cairn k).free = true →
        s.replies (.cairnCancel h index) 0x41 h 0 0 [] (fun t => s.onlyGatehouse t)) ∧
      (k < 4096 → s.cairnBad k = false → (s.cairn k).free = false → (s.cairn k).committed = true →
        s.replies (.cairnCancel h index) 0x41 h 2 0x21 [] (fun t => s.onlyGatehouse t)) ∧
      (k < 4096 → s.cairnBad k = false → (s.cairn k).free = false → (s.cairn k).committed = false →
        s.replies (.cairnCancel h index) 0x41 h 0 0 [] (fun t => (t.cairn k).free = true ∧ (t.cairn k).armed = [] ∧
          (∀ j, j ≠ k → t.cairn j = s.cairn j) ∧ t.regs = s.regs ∧ t.events = s.events ∧
          (s.ovl.bound = true → s.ovl.auto = false → s.ovl.cairn = k → t.ovl.bound = false ∧ t.ovl.modeEnter = false))))

/-- R127, R129, R132, R133, R137. -/
def Obligations.CairnsFire : Prop :=
  ∀ (s : State) (k dt : Nat), s.weak = [] → k < 4096 →
    let s' := s.advance dt
    let c := s'.cairn k
    let next : Cairn :=
      if c.count = 0 then {}
      else
        let p := (c.pos + c.period * 65536) % (2 ^ 32 * 16000 * 65536)
        { sf := BitVec.ofNat 32 (p / (16000 * 65536)), fp := BitVec.ofNat 32 (p % (16000 * 65536)), act := c.act,
          rep := if c.count = 0xFFFF then c.rep else putFld c.rep 15 0 (c.count - 1) }
    let record := fun (fired : Bool) (cause : Nat) =>
      ({ w0 := BitVec.ofNat 32 (2 ^ 31 + (if fired then 2 ^ 30 else 0) + cause * 65536 + k), w1 := c.sf, w2 := c.fp } :
        EventRecord)
    let goesOn := fun (t : State) => t.endedNow k = true ∧
      (s'.tick.ended = [] → s'.stopPend = false → ∀ n, (t.advance (n + 1)).cairn k = next)
    let missed := fun (cause : Nat) (t : State) =>
      t.reg 0x30084 = satAdd (s'.reg 0x30084) 1 ∧ (∀ j, t.cairn j = s'.cairn j) ∧ goesOn t ∧
      (s'.events.length < 64 → t.events = s'.events ++ [record false cause]) ∧
      (64 ≤ s'.events.length → t.events = s'.events ∧ t.reg 0x3007C = satAdd (s'.reg 0x3007C) 1) ∧
      t.chans = s'.chans ∧ t.pins = s'.pins ∧ t.reg 0x30080 = s'.reg 0x30080
    let fires := fun (t : State) =>
      t.reg 0x30080 = satAdd (s'.reg 0x30080) 1 ∧ t.reg 0x30084 = s'.reg 0x30084 ∧
      (∀ j, t.cairn j = s'.cairn j) ∧ goesOn t ∧
      (c.report = false → t.events = s'.events) ∧
      (c.report = true → s'.events.length < 64 → t.events = s'.events ++ [record true 0])
    let due := s'.live = true ∧ s'.tbOn = true ∧ c.free = false ∧ reached s'.tb.fp c.pos = true ∧
      s'.endedNow k = false ∧ s'.duesBefore k = []
    (s'.live = true → s'.tbOn = true → c.free = false → c.committed = false → c.armedAll = false →
      (c.binds = true → c.bound = true) → s'.armDue k = true →
      s.completes (.cairnArm k dt) (fun t =>
        (∀ u, u ∈ (t.cairn k).armed ↔ u ∈ s'.targets k ∧ (u ∈ c.armed ∨ (s'.armedAt u < State.places u ∧
          ∀ j y, (j, y) ∈ s'.cairns → s'.armsBefore j k u = false))) ∧
        (t.cairn k).act = c.act ∧ (∀ j, j ≠ k → t.cairn j = s'.cairn j) ∧ ({ t with cairns := s'.cairns, tick := s'.tick } : State) = s')) ∧
    (s'.live = true → s'.tbOn = true → c.free = false → c.committed = false → s'.commitDue k = true →
      s.completes (.cairnCommit k dt) (fun t => t.cairn k = { c with committed := true } ∧
        (∀ j, j ≠ k → t.cairn j = s'.cairn j) ∧ ({ t with cairns := s'.cairns, tick := s'.tick } : State) = s')) ∧
    (reached s'.tb.fp c.pos = false → exec (.cairnFire k dt) s = .next s') ∧
    (due → c.binds = true → c.bound = false → s.completes (.cairnFire k dt) (missed 0x02)) ∧
    (due → c.binds = false → c.armedAll = false → s.completes (.cairnFire k dt) (missed 0x21)) ∧
    (due → c.kind = 4 → c.armedAll = true → s'.targetsOut k = 0 →
      s.completes (.cairnFire k dt) (fun t => fires t ∧ t.pins = s'.pins ∧ t.terraces = s'.terraces ∧
        (let n := c.arg % 65536
         let u := c.arg / 65536
         (∀ v, v ≠ u → t.user v = s'.user v) ∧
         (s'.lineRuns u (s'.lineOf u (.strobe n)) = true → t.sourceBit u (.strobe n) = true)))) ∧
    (due → c.kind = 3 → c.armedAll = true → s'.targetsOut k = 0 →
      let p := c.arg / 32768
      let x := s'.pin p
      let w := s'.pinNext p
      (x.configured = true → pinCairn w = true → (s'.terr (pinTerr w)).started = true →
        s.completes (.cairnFire k dt) (fun t => fires t ∧ (∀ q, q ≠ p → t.pin q = s'.pin q) ∧
          (c.arg / 8192 % 4 = 0 → t.pin p = { x with cairnVal := false, cairnOe := true }) ∧
          (c.arg / 8192 % 4 = 1 → t.pin p = { x with cairnVal := true, cairnOe := true }) ∧
          (c.arg / 8192 % 4 = 2 → t.pin p = { x with cairnOe := false }) ∧
          (c.arg / 8192 % 4 = 3 → t.pin p = { x with cairnVal := !x.cairnVal }))) ∧
      (pinCairn w = false → s.completes (.cairnFire k dt) (missed 0x02)))

/-- R151, R154, R157, R161. -/
def Obligations.LaneCommands : Prop :=
  ∀ (s : State) (h : Hdr) (lane a b c : Word),
    let l := lane.toNat
    let x := s.lane l
    let others := fun (t : State) => ∀ j, j ≠ l → t.lane j = s.lane j
    (s.runs 0x33 h [lane, a, b] = true →
      let w := if fld (s.reg (aCh l)) 13 12 = 0 then (if x.step ≤ 4 then 80 else 66) else 64
      (143 < l ∨ a.toNat = 0 ∨ 63 < a.toNat ∨ 1 < b.toNat ∨ bit (s.reg (aLane l)) 13 = false →
        s.replies (.laneSlip h lane a b) 0x33 h 2 2 [] (fun t => s.onlyGatehouse t)) ∧
      (l < 144 → 1 ≤ a.toNat → a.toNat ≤ 63 → b.toNat ≤ 1 → bit (s.reg (aLane l)) 13 = true →
        s.replies (.laneSlip h lane a b) 0x33 h 0 0 [] (fun t => others t ∧
          t.lane l = { x with
            boundary := (if b.toNat = 0 then x.boundary + a.toNat else x.boundary + (w - a.toNat % w)) % w,
            straddle := decide (x.st = .run) && decide (fld (s.reg (aCh l)) 13 12 = 2), alignStart := s.now } ∧
          (∀ r, (t.chan l).rx = some r → r.bad = true) ∧ (∀ j, j ≠ l → t.chan j = s.chan j) ∧
          bit (t.reg (aLane l + 0x3C)) 31 = false ∧
          s.onlyGhRegs { t with lanes := s.lanes, chans := s.chans } [aLane l + 0x3C]))) ∧
    (s.runs 0x34 h [lane, a, b, c] = true → l < 144 → fld a 15 8 = 0 → fld b 15 8 = 0 → c.toNat < 64 →
      let grid := State.axisOk a (-32) 31 = true ∧ State.axisOk b (-63) 63 = true ∧ 16 ≤ c.toNat ∧ c.toNat ≤ 40
      (¬ grid → s.replies (.eyeScan h lane a b c) 0x34 h 2 0x27 [] (fun t => s.onlyGatehouse t)) ∧
      (grid → x.lock = false → s.replies (.eyeScan h lane a b c) 0x34 h 2 0x11 [] (fun t => s.onlyGatehouse t)) ∧
      (grid → x.lock = true → x.st = .run ∨ x.st = .hold ∨ x.st = .loop →
        ((s.scan (l / 4)).isSome = true →
          s.replies (.eyeScan h lane a b c) 0x34 h 2 0x30 [] (fun t => s.onlyGatehouse t)) ∧
        (s.scan (l / 4) = none →
          s.replies (.eyeScan h lane a b c) 0x34 h 0 0 [BitVec.ofNat 32 (0x200400 + 0x1000 * (l / 4))] (fun t =>
            t.scan (l / 4) = some { lane := l, phase := a, volt := b, dwell := c.toNat, step := x.step, startedAt := s.now } ∧
            bit (t.reg (0x200400 + 0x1000 * (l / 4))) 31 = false ∧ t.lanes = s.lanes ∧ t.chans = s.chans)))) ∧
    (s.runs 0x35 h [lane, a] = true → l < 144 → a.toNat ≤ 3 → s.lnLoopStep l ≤ 10 →
      (s.inService l = true → s.replies (.loopback h lane a) 0x35 h 2 0x26 [] (fun t => s.onlyGatehouse t)) ∧
      (s.inService l = false → a.toNat = 0 → x.st ≠ .loop →
        s.replies (.loopback h lane a) 0x35 h 0 0 [] (fun t => s.onlyGatehouse t)) ∧
      (s.inService l = false → a.toNat ≠ 0 →
        s.replies (.loopback h lane a) 0x35 h 0 0 [] (fun t => others t ∧ (t.lane l).st = .loop ∧
          (t.lane l).loopKind = a.toNat ∧ (t.lane l).loopStep = s.lnLoopStep l ∧
          (x.st ≠ .loop → (t.lane l).step = s.lnLoopStep l ∧ (t.lane l).heldStep = x.step ∧
            (t.lane l).loopReturn = if s.chEn l then .hold else .off))) ∧
      (s.inService l = false → a.toNat = 0 → x.st = .loop →
        s.replies (.loopback h lane a) 0x35 h 0 0 [] (fun t => others t ∧ (t.lane l).loopKind = 0 ∧
          (t.lane l).step = x.heldStep ∧ (t.lane l).st = if x.loopReturn = .hold then .hold else .off))) ∧
    (s.runs 0x36 h [lane, a] = true →
      (143 < l ∨ 10 < a.toNat ∨ s.lnMax l < a.toNat →
        s.replies (.ladderRestart h lane a) 0x36 h 2 2 [] (fun t => s.onlyGatehouse t)) ∧
      (l < 144 → a.toNat ≤ 10 → a.toNat ≤ s.lnMax l →
        (s.lnFixed l = true ∨ a = 0 ∨ (x.heard = true ∧ bit x.cap (16 + a.toNat) = true)) →
        (x.st = .loop → s.replies (.ladderRestart h lane a) 0x36 h 2 0x26 [] (fun t => s.onlyGatehouse t)) ∧
        (x.st = .off → s.replies (.ladderRestart h lane a) 0x36 h 0 0 [] (fun t => t.lanes = s.lanes ∧
          s.onlyGhRegs t [aLane l] ∧ fld (t.reg (aLane l)) 3 0 = a.toNat)) ∧
        (x.st ≠ .loop → x.st ≠ .off → s.replies (.ladderRestart h lane a) 0x36 h 0 0 [] (fun t => others t ∧
          fld (t.reg (aLane l)) 3 0 = a.toNat ∧ (t.lane l).failedRung = 15 ∧ (t.lane l).passed = [] ∧
          (s.lnFixed l = false → (t.lane l).st = .announce ∧ (t.lane l).step = a.toNat ∧ (t.lane l).climbStart = a.toNat) ∧
          (s.lnFixed l = true → (t.lane l).st = .switch ∧ (t.lane l).rung = s.lnFixStep l ∧
            (t.lane l).step = s.lnFixStep l ∧ (t.lane l).synth = false)))))

/-- R141, R144, R146-R150, R158-R160, R162, R579. -/
def Obligations.LadderEvents : Prop :=
  ∀ (s : State) (l dt : Nat), l < 144 →
    let s' := s.advance dt
    let x := s'.lane l
    s'.live = true →
    (∀ cap check codeErr, s'.ladderDue l = s' → s'.domainOn (quadId (l / 4)) = true →
      let good := codeErr = false ∧ crc8 cap = check ∧ 1 ≤ cap.toNat / 2 ^ 28 ∧ bit cap 27 = false
      (x.st = .announce → good → s'.lnFixed l = false → s.completes (.ladderBlockReceived l cap check codeErr dt) (fun t =>
        (t.lane l).cap = cap ∧ (t.lane l).st = .announce ∧ (t.lane l).count = x.count + 1 ∧
        (x.lock = true → 15 ≤ x.count → x.further = none → (t.lane l).further = some (s'.now + blocks16 x.step)) ∧
        (x.count < 15 → (t.lane l).further = x.further))) ∧
      (x.st = .announce → ¬ good → s.completes (.ladderBlockReceived l cap check codeErr dt) (fun t =>
        t.lane l = { x with count := 0 })) ∧
      (x.st = .agree ∨ x.st = .train ∨ x.st = .verify → good → s'.lnFixed l = false → fld cap 15 12 = 5 →
        s.completes (.ladderBlockReceived l cap check codeErr dt) (fun t =>
          (t.lane l).st = .fallback ∧ (t.lane l).failedRung = fld cap 11 8 ∧ bit (t.reg (aLane l + 0x10)) 30 = true))) ∧
    (x.further = none →
      (x.st = .agree → x.enteredAt + 2000000000 ≤ s'.now → s.completes (.ladderTimeout l dt) (fun t =>
        (t.lane l).st = .announce ∧ (t.lane l).step = 0 ∧ (t.lane l).restarts = min 0xFFFF (x.restarts + 1))) ∧
      (x.st = .train → x.enteredAt + 8000000000 ≤ s'.now → s.completes (.ladderTimeout l dt) (fun t =>
        (s'.lnFixed l = false → (t.lane l).st = .fallback ∧ (t.lane l).failedRung = x.step) ∧
        (s'.lnFixed l = true → (t.lane l).st = .train ∧ (t.lane l).restarts = min 0xFFFF (x.restarts + 1)))) ∧
      (x.st = .verify → x.enteredAt + 4000000000 ≤ s'.now → s.completes (.ladderTimeout l dt) (fun t =>
        (t.lane l).st = .fallback ∧ (t.lane l).failedRung = x.step ∧ bit (t.reg (aLane l + 0x10)) 30 = true)) ∧
      (x.st = .switch → x.synth = false → s'.lnFixed l = false → x.enteredAt + 50000000 ≤ s'.now →
        s.completes (.ladderTimeout l dt) (fun t => (t.lane l).st = .fallback ∧ (t.lane l).failedRung = x.rung))) ∧
    (∀ u, x.further = some u → u ≤ s'.now →
      (x.st = .announce → s.completes (.ladderTimeout l dt) (fun t => (t.lane l).st = .agree ∧ (t.lane l).step = x.step)) ∧
      (x.st = .agree → x.prop = none → s.completes (.ladderTimeout l dt) (fun t => (t.lane l).st = .run ∧
        (t.lane l).step = x.step ∧ (t.chan l).runSince = s'.now ∧ (t.chan l).sync = false)) ∧
      (∀ p, x.st = .agree → x.prop = some p → s.completes (.ladderTimeout l dt) (fun t => (t.lane l).st = .switch ∧
        (t.lane l).step = x.rung ∧ (t.lane l).synth = false))) ∧
    (x.st = .announce → x.enteredAt + 100000000000 ≤ s'.now → s.completes (.noPartner l dt) (fun t =>
      t.lane l = { x with noPartner := true } ∧ t.regs = s'.regs)) ∧
    (s'.ladderDue l = s' →
      (x.st = .verify → x.windowClean = false → x.windowStart + 1000000000 ≤ s'.now → x.count < 16 →
        s.completes (.verifyWindowClean l dt) (fun t => (t.lane l).windowClean = true ∧ (t.lane l).st = .verify ∧
          fld (t.lane l).own 15 12 = 3 ∧ fld (t.lane l).own 11 8 = x.step % 16)) ∧
      (x.st = .switch → (s'.pll (8 + l / 36)).lock = true → s.completes (.synthLock l dt) (fun t =>
        (t.lane l).st = .train ∧ (t.lane l).synth = true ∧ (t.lane l).adapt = false ∧ (t.lane l).step = x.step)) ∧
      (x.st = .train → ∀ vals,
        s.completes (.adaptationSettled l vals dt) (fun t => (t.lane l).adapt = true ∧ (t.lane l).lock = true ∧
          (s'.lnFixed l = true → (t.lane l).st = .run) ∧
          (s'.lnFixed l = false → 256 ≤ x.count → (t.lane l).st = .verify) ∧
          (s'.lnFixed l = false → x.count < 256 → (t.lane l).st = .train))) ∧
      (x.st ≠ .run → x.st ≠ .switch → x.st ≠ .loop →
        s.completes (.receiveLockChange l false dt) (fun t => (t.lane l).lock = false ∧ (t.lane l).st = x.st) ∧
        (x.st ≠ .train →
          s.completes (.receiveLockChange l true dt) (fun t => (t.lane l).lock = true ∧ (t.lane l).st = x.st)))) ∧
    (x.st = .run → s'.inService l = true → ∀ synth, s.completes (.laneLockLoss l synth dt) (fun t =>
      (t.lane l).st = .hold ∧ (t.chan l).retired = true ∧ fld (t.reg (aCh l + 0x14)) 31 28 = 2)) ∧
    (x.st ≠ .run → ∀ synth, exec (.laneLockLoss l synth dt) s = .next s') ∧
    (∀ ws : List Nat, x.lock = true → ws.length = 1024 →
      x.alignStart + bitsPs (1024 * (if fld (s'.reg (aCh l)) 13 12 = 0 then (if x.step ≤ 4 then 80 else 66) else 64)) x.step ≤ s'.now →
      let pat := (s'.reg (aLane l + 0x38)).toNat * 2 ^ 32 + (s'.reg (aLane l + 0x34)).toNat
      let wide := 2 ^ min 64 (if fld (s'.reg (aCh l)) 13 12 = 0 then (if x.step ≤ 4 then 80 else 66) else 64)
      s.completes (.alignWindowEnd l ws dt) (fun t =>
        t.reg (aLane l + 0x3C) = BitVec.ofNat 32 (2 ^ 31 + ws.countP (fun v => decide (v % wide = pat % wide))) ∧
        s'.onlyRegs { t with lanes := s'.lanes } [aLane l + 0x3C] ∧ t.lane l = { x with alignStart := s'.now })) ∧
    (∀ q y err counts, q < 36 → s'.scan q = some y → counts.length = State.scanPoints y →
      (err = true ∨ y.startedAt + State.scanPoints y * State.pointPs y ≤ s'.now) →
      s.completes (.eyeScanEnd q err counts dt) (fun t => t.scan q = none ∧
        bit (t.reg (0x200400 + 0x1000 * q)) 31 = true ∧ bit (t.reg (0x200400 + 0x1000 * q)) 30 = err ∧
        t.reg (0x200408 + 0x1000 * q) = y.phase ∧ t.reg (0x20040C + 0x1000 * q) = y.volt ∧
        (err = true → t.reg (0x200414 + 0x1000 * q) = 0 ∧ t.reg (0x200418 + 0x1000 * q) = 0) ∧
        (t.reg (0x200420 + 0x1000 * q)).toNat =
          State.eyeCode (counts.getD 1 0) % 65536 * 65536 + State.eyeCode (counts.getD 0 0) % 65536))

/-- R184-R191, R198, R199, R201, R202. -/
def Obligations.ChannelControl : Prop :=
  (∀ (s : State) (h : Hdr) (ch step group spare : Word), ch.toNat < 144 →
    let c := ch.toNat
    let x := s.chan c
    (s.runs 0x30 h [ch, step, group] = true → step.toNat ≤ 10 → group.toNat ≤ 0xFF →
      let s1 := (s.setRf (aLane c) 7 4 step.toNat).setRf (aCh c + 0xC) 7 0 group.toNat
      let r := (s1.chCheck c (putBit (s.reg (aCh c)) 0 true)).1
      (s.chEn c = true → s.replies (.channelEnable h ch step group) 0x30 h 2 9 [] (fun t => s.onlyGatehouse t)) ∧
      (s.chEn c = false → r ≠ 0 → s.replies (.channelEnable h ch step group) 0x30 h 2 r [] (fun t =>
        t.chEn c = false ∧ t.reg (aLane c) = s.reg (aLane c) ∧ t.reg (aCh c + 0xC) = s.reg (aCh c + 0xC) ∧
        t.lanes = s.lanes ∧ t.chans = s.chans ∧ fld (t.reg (aCh c + 4)) 23 16 = r.toNat)) ∧
      (s.chEn c = false → r = 0 →
        s.replies (.channelEnable h ch step group) 0x30 h 0 0 [] (fun t =>
          t.chEn c = true ∧ t.lnMax c = step.toNat ∧ t.chGroup c = group.toNat ∧ bit (t.reg (aCh c + 4)) 30 = true ∧
          ((s.lane c).st = .off → (t.lane c).st = if s.lnFixed c then .switch else .announce) ∧
          (∀ d, d ≠ c → t.lane d = s.lane d ∧ t.chan d = s.chan d)))) ∧
    (s.runs 0x31 h [ch, spare] = true →
      (s.chEn c = false → s.replies (.channelRetire h ch spare) 0x31 h 2 2 [] (fun t => s.onlyGatehouse t)) ∧
      (s.chEn c = true → x.retired = true →
        s.replies (.channelRetire h ch spare) 0x31 h 2 0x1D [] (fun t => s.onlyGatehouse t)) ∧
      (s.chEn c = true → x.retired = false → spare = 0xFFFF →
        s.replies (.channelRetire h ch spare) 0x31 h 0 0 [0xFFFF] (fun t => (t.chan c).retired = true ∧
          (t.chan c).buffer = [] ∧ (t.chan c).launch = [] ∧ (t.chan c).scanOk = false ∧ t.chEn c = true ∧
          fld (t.reg (aCh c + 0x14)) 31 28 = 6 ∧ bit (t.reg (aCh c + 0x14)) 27 = true ∧
          t.reg 0x2C = satAdd (s.reg 0x2C) 1 ∧ bit (t.reg 0x18) 20 = true ∧
          ((s.lane c).st ≠ .off → (s.lane c).st ≠ .loop → (t.lane c).st = .hold ∧ (t.lane c).step = (s.lane c).step))) ∧
      (s.chEn c = true → x.retired = false → spare ≠ 0xFFFF → 143 < spare.toNat ∨ s.eligibleSpare c spare.toNat = false →
        s.replies (.channelRetire h ch spare) 0x31 h 2 0x23 [] (fun t => s.onlyGatehouse t)) ∧
      (s.chEn c = true → x.retired = false → spare.toNat < 144 → s.eligibleSpare c spare.toNat = true →
        s.completes (.channelRetire h ch spare) (fun t => (t.chan c).retired = true ∧
          (t.chan c).switching = some spare.toNat ∧ (∃ r, t.gh.running = some r ∧ r.op = 0x31 ∧ r.begun = true) ∧
          t.reg 0x2C = satAdd (s.reg 0x2C) 1))) ∧
    (s.runs 0x32 h [ch] = true →
      (x.retired = false → s.replies (.channelRestore h ch) 0x32 h 2 2 [] (fun t => s.onlyGatehouse t)) ∧
      (x.retired = true → (s.lane c).lock = false →
        s.replies (.channelRestore h ch) 0x32 h 2 0x11 [] (fun t => s.onlyGatehouse t)) ∧
      (x.retired = true → (s.lane c).lock = true → x.scanOk = false →
        s.replies (.channelRestore h ch) 0x32 h 2 0x27 [] (fun t => s.onlyGatehouse t)) ∧
      (x.retired = true → (s.lane c).lock = true → x.scanOk = true →
        s.replies (.channelRestore h ch) 0x32 h 0 0 [] (fun t => (t.chan c).retired = false ∧ (t.chan c).scanOk = false ∧
          ((s.lane c).st = .hold → (t.lane c).st = .run ∧ (t.lane c).step = (s.lane c).step) ∧
          (t.chan c).txSeq = 0 ∧ (t.chan c).rxExpect = 0 ∧ (t.chan c).switching = none ∧
          (t.chan c).launch = [] ∧ fld (t.reg (aCh c + 0x14)) 31 28 = 0 ∧
          mkHeader tResync 0 0 0 0 ∈ (t.chan c).control ∧
          (x.replacedBy = none → t.reg (aCh c + 0xC) = s.reg (aCh c + 0xC)) ∧
          (x.replacedBy ≠ none → s.groupSpare (s.chGroup c) = none → t.chRole c = 1) ∧
          (x.replacedBy ≠ none → s.groupSpare (s.chGroup c) ≠ none → t.chRole c = 0 ∧ t.chGroup c = 0xFF))))) ∧
  (∀ (s : State) (h : Hdr) (ch x y : Word), 143 < ch.toNat →
    (s.runs 0x30 h [ch, x, y] = true → s.replies (.channelEnable h ch x y) 0x30 h 2 2 [] (fun t => s.onlyGatehouse t)) ∧
    (s.runs 0x31 h [ch, x] = true → s.replies (.channelRetire h ch x) 0x31 h 2 2 [] (fun t => s.onlyGatehouse t)) ∧
    (s.runs 0x32 h [ch] = true → s.replies (.channelRestore h ch) 0x32 h 2 2 [] (fun t => s.onlyGatehouse t))) ∧
  (∀ (s : State) (who : Accessor) (c q : Nat) (value : Word), Accessor.ok who = true → c < 144 → q < 8 →
    (s.mayAccess who true (aCh c) = true →
      let w := (s.reg (aCh c) &&& 0xFFC003FE) ||| ((value ||| 1) &&& 0x003FFC01)
      s.completes (.chCtrlEnable who c value) (fun t => t = ((s.meetCairns (aCh c)).writeWord (aCh c) (value ||| 1)).1) ∧
      (s.firesFirst (aCh c) = [] → s.chEn c = false → (s.chCheck c w).1 = 0 →
        s.completes (.chCtrlEnable who c value) (fun t => t.reg (aCh c) = w ∧ bit (t.reg (aCh c + 4)) 30 = true ∧
          ((s.lane c).st = .off → (t.lane c).st = if s.lnFixed c then .switch else .announce))) ∧
      (s.firesFirst (aCh c) = [] → s.chEn c = false → (s.chCheck c w).1 ≠ 0 → s.completes (.chCtrlEnable who c value) (fun t =>
        s.onlyRegs t [aCh c + 4, aCis c + 4] ∧ fld (t.reg (aCh c + 4)) 23 16 = (s.chCheck c w).1.toNat)) ∧
      (s.firesFirst (aCh c) = [] → s.chEn c = true → s.completes (.channelDisable who c value) (fun t => t.chEn c = false ∧
        (t.chan c).retired = false ∧ (t.chan c).buffer = [] ∧ (t.chan c).launch = [] ∧ (t.chan c).sync = false ∧
        t.stamps = s.stamps ∧
        ((s.lane c).st ≠ .loop → (t.lane c).st = .off) ∧
        ((s.lane c).st = .loop → (t.lane c).st = .loop ∧ (t.lane c).loopReturn = .off)))) ∧
    (s.mayAccess who true (aCh c + 0xC00 + 0x40 * q) = true →
      let n := value.toNat
      (s.lq c q = [] → s.chEn c = true → 1 ≤ n → n ≤ 9216 → s.lqRoom c q n = true →
        s.completes (.chLqWinWrite who c q value) (fun t =>
          t.lq c q = [{ len := n, bytes := [], complete := false }] ∧ ({ t with chans := s.chans, tick := s.tick } : State) = s)) ∧
      (s.lq c q = [] → (s.chEn c = false ∨ n = 0 ∨ 9216 < n ∨ s.lqRoom c q n = false) →
        exec (.chLqWinWrite who c q value) s = .next s) ∧
      (∀ f, s.lq c q = [f] → f.complete = false → s.completes (.chLqWinWrite who c q value) (fun t =>
        t.lq c q = [{ len := f.len, bytes := (f.bytes ++ wordBytes value).take f.len,
                      complete := decide (f.len ≤ f.bytes.length + 4) }])))) ∧
  (∀ (s : State) (t0 c q : Nat) (bytes : List Byte), t0 < 128 → c < 144 → q < 8 →
    let s' := s.advance 0
    s'.live = true →
    (s'.portClocked t0 3 = true → s'.chEn c = true → t0 / 32 = c / 36 → 0 < bytes.length →
      bytes.length ≤ 9216 → s'.lqRoom c q bytes.length = true →
      s.completes (.launchPortFrame t0 c q bytes) (fun t =>
        t.lq c q = s'.lq c q ++ [{ len := bytes.length, bytes := bytes, complete := true }] ∧ t.regs = s'.regs)) ∧
    (s'.lqRoom c q bytes.length = false ∨ s'.portClocked t0 3 = false → exec (.launchPortFrame t0 c q bytes) s = .next s')) ∧
  (∀ (s : State) (c sp dt : Nat), c < 144 → sp < 144 → sp ≠ c →
    let s' := s.advance dt
    s'.live = true → (s'.chan c).switching = some sp → s'.chRuns sp = true → s'.txIdle sp = true →
    s'.gapFits sp (s'.substWords c) = true → s.completes (.spareSwitchIn c dt) (fun t =>
      (t.chan sp).subst = true ∧ (t.chan sp).subFor = c ∧ (t.chan sp).index = (s'.chan c).index ∧ t.chRole sp = 0 ∧
      (t.chan c).switching = none ∧ (t.chan c).replacedBy = some sp ∧
      (t.chan sp).sent.head? = some (mkHeader tSubst 0 (s'.chGroup c * 256 + (s'.chan c).index) 0 0)))

/-- R168, R172, R175, R178-R183, R191, R195, R196, R430. -/
def Obligations.ChannelEvents : Prop :=
  ∀ (s : State) (c dt : Nat) (bits : List Bool) (f : RxFrame) (w : Word64), c < 144 →
    let s' := s.advance dt
    let x := s'.chan c
    let items := (s'.rxRead c bits).1
    s'.live = true → s'.chRuns c = true →
    (s'.chCoding c ≠ 2 → (items = [] → s.completes (.dataFrameReceived c bits dt) (fun t =>
      (t.chan c).rx = x.rx ∧ t.cisterns = s'.cisterns ∧ t.regs = s'.regs ∧ (t.chan c).control = x.control))) ∧
    (x.sync = true → s'.chCoding c ≠ 2 → s'.chRetry c = true → x.rx = none → s'.rxNext c items = some (f, []) →
      (s'.modChan c (fun y => { y with rxLine := (s'.rxRead c bits).2 })).rxNext c items = some (f, []) → f.part = false →
      let ty := hType f.header
      (ty = 0xD1 → crcFails f = false → s'.chEnc c = false → hSeq f.header = x.rxExpect →
        s.completes (.dataFrameReceived c bits dt) (fun t => (t.chan c).ackSeq = hSeq f.header ∧
          (t.chan c).rxExpect = x.rxExpect + 1 ∧ (t.chan c).nakAt = none ∧
          t.reg (aCh c + 0x24) = satAdd (s'.reg (aCh c + 0x24)) 1 ∧ (t.chan c).lastEnd = s'.now)) ∧
      (ty = 0xD1 → crcFails f = false → s'.chEnc c = false → hSeq f.header ≠ x.rxExpect → x.nakAt = none →
        (∀ g, g ∈ x.control → hType g ≠ 0xA3) →
        s.completes (.dataFrameReceived c bits dt) (fun t => (t.chan c).rxExpect = x.rxExpect ∧
          (t.chan c).ackSeq = x.ackSeq ∧ (t.chan c).nakAt = none ∧ t.reg (aCh c + 0x2C) = s'.reg (aCh c + 0x2C) ∧
          mkHeader tNak 0 0 x.ackSeq.toNat 0 ∈ (t.chan c).control ∧ t.cisterns = s'.cisterns)) ∧
      (ty = 0xD1 → crcFails f = true → s.completes (.dataFrameReceived c bits dt) (fun t =>
        t.reg (aCh c + 0x28) = satAdd (s'.reg (aCh c + 0x28)) 1 ∧ (t.chan c).rxExpect = x.rxExpect)) ∧
      (ty ∉ [0xD1, 0xA2, 0xA3, 0xA5, 0xA6, 0xA7] → crcFails f = false →
        s.completes (.dataFrameReceived c bits dt) (fun t =>
          t.reg (aCh c + 0x34) = satAdd (s'.reg (aCh c + 0x34)) 1 ∧ t.cisterns = s'.cisterns)) ∧
      (ty = 0xA2 → crcFails f = false → ∀ g rest, x.buffer = g :: rest → hAck f.header = g.seq →
        s.completes (.ackReceived c bits dt) (fun t => (t.chan c).buffer = rest ∧ (t.chan c).lastAck = g.seq ∧
          t.regs = s'.regs)) ∧
      (ty = 0xA3 → crcFails f = false → (∀ g, g ∈ x.buffer → g.seq ≠ hAck f.header) → x.buffer ≠ [] →
        x.retryTimes.length < 7 → s.completes (.nakReceived c bits dt) (fun t => (t.chan c).round = x.buffer ∧
          (t.chan c).buffer = x.buffer ∧ t.reg (aCh c + 0x2C) = satAdd (s'.reg (aCh c + 0x2C)) 1)) ∧
      (ty = 0xA5 → crcFails f = false → s.completes (.markReceived c bits dt) (fun t =>
        (t.chan c).markFrame = some (hAck f.header).toNat ∧ (t.chan c).markAt = s'.tb.fpAgo (f.age + x.deskew))) ∧
      (ty = 0xA7 → crcFails f = false → s.completes (.resyncReceived c bits dt) (fun t => (t.chan c).rxExpect = 0 ∧
        (t.chan c).ackSeq = 0xFFFF ∧ (t.chan c).nakAt = none ∧ (t.chan c).txSeq = x.txSeq ∧
        t.rxEpoch c = (s'.rxEpoch c + 1) % 2 ^ 48))) ∧
    (s'.chCoding c ≠ 2 → s'.chRetry c = true →
      (x.buffer ≠ [] → x.advancedAt + s'.chTmo c ≤ s'.now → x.retryTimes.length < 7 →
        s.completes (.retryTimeout c dt) (fun t => (t.chan c).round = x.buffer ∧ (t.chan c).advancedAt = s'.now ∧
          t.reg (aCh c + 0x2C) = satAdd (s'.reg (aCh c + 0x2C)) 1)) ∧
      ((∃ u, x.firstUnacked = some u ∧ u + 2000000 ≤ s'.now) ∨ x.lastSent + s'.chAckInt c ≤ s'.now →
        s.completes (.ackTimer c dt) (fun t => mkHeader tAck 0 0 0 0 ∈ (t.chan c).control ∧ t.regs = s'.regs)) ∧
      (∀ h rest, x.control = h :: rest → s'.txIdle c = true →
        let g := s'.controlNow c h
        (s'.gapFits c [g, mkTrailer g [] 0] = true → hType g ≠ 0xA3 ∨ x.retryTimes.length < 7 →
          s.completes (.retransmissionGapSend c dt) (fun t => (t.chan c).control = rest ∧
            (t.chan c).sent = [g, mkTrailer g [] 0] ∧ (t.chan c).lastSent = s'.now ∧
            (hType g = 0xA7 → t.txEpoch c = (s'.txEpoch c + 1) % 2 ^ 48) ∧
            (hType g = 0xA3 → (t.chan c).nakAt = some s'.now ∧
              t.reg (aCh c + 0x2C) = satAdd (s'.reg (aCh c + 0x2C)) 1))) ∧
        (s'.gapFits c [g, mkTrailer g [] 0] = false → exec (.retransmissionGapSend c dt) s = .next s')) ∧
      (∀ g rest, x.control = [] → x.round = g :: rest → s'.weak = [] → s'.txIdle c = true →
        s'.gapFits c ([g.header] ++ g.payload ++ [g.trailer]) = true →
        s.completes (.retransmissionGapSend c dt) (fun t => (t.chan c).round = rest ∧
          (t.chan c).sent = [g.header] ++ g.payload ++ [g.trailer] ∧ t.reg (aCh c + 0x20) = s'.reg (aCh c + 0x20))) ∧
      (s'.chGroup c ≠ 0xFF → s'.tbOn = true → x.markSent ≠ some (s'.tb.fp / 65536) →
        s'.chMarkPh c ≤ s'.tb.fp % 65536 →
        let g := mkHeader 0xA5 0 (s'.chGroup c * 256 + x.index) (s'.tb.fp / 65536 % 16000) 0
        let ws := [g, mkTrailer g [] 0]
        (s'.txIdle c = true → s'.chRole c = 1 ∨ s'.gapFits c ws = true → s.completes (.markSend c dt) (fun t =>
          (t.chan c).markSent = some (s'.tb.fp / 65536) ∧ t.regs = s'.regs ∧ (t.chan c).sent = ws)) ∧
        (s'.chRole c = 1 → s'.txIdle c = false → exec (.markSend c dt) s = .next s') ∧
        (s'.chRole c ≠ 1 → s'.txIdle c = false ∨ s'.gapFits c ws = false → s.completes (.markSend c dt) (fun t =>
          (t.chan c).sent = x.sent ∧ t.reg (aCh c + 0x38) = satAdd (s'.reg (aCh c + 0x38)) 1)))) ∧
    (bit (s'.reg (aCh c)) 10 = true → x.rx = none → max x.lastEnd x.runSince + 100000000 ≤ s'.now →
      s.completes (.silenceTimeout c dt) (fun t => (t.chan c).retired = true ∧ (t.lane c).st = .hold ∧
        fld (t.reg (aCh c + 0x14)) 31 28 = 3)) ∧
    (s'.chCoding c = 0 → (s'.lane c).step ≤ 4 → ∀ gain, s.completes (.blockLock c (.comma gain) dt) (fun t =>
      (t.chan c).sync = gain ∧ (gain = false → (t.chan c).rx = none) ∧ (gain = true → t.cisterns = s'.cisterns))) ∧
    (s'.chCoding c = 0 → 5 ≤ (s'.lane c).step → ∀ hs, s.completes (.blockLock c (.headers hs) dt) (fun t =>
      (t.chan c).sync = (hs.foldl (fun (a : Bool × Nat × Nat) h => LineCode.blockLockStep a.1 a.2.1 a.2.2 h)
        (x.sync, x.goodSync, x.badSync)).1 ∧ ((t.chan c).sync = false → (t.chan c).rx = none))) ∧
    (s'.chCoding c = 1 →
      let s1 := s'.rxTake c bits
      let y := s1.chan c
      let bc : BitVec 16 := BitVec.ofNat 16 (w.toNat / 65536)
      let inPlace := y.rxLine.left = some 0 ∧ y.rxLine.bits = []
      let good := inPlace ∧ w.toNat / 2 ^ 32 = 0xC3A596E1 ∧ w.toNat % 65536 = 65535 - bc.toNat ∧ bc = y.blockCount + 1
      s.completes (.syncWord c w bits dt) (fun t =>
        (y.sync = false → (t.chan c).blockCount = bc ∧ (t.chan c).rxLine.seed = LineCode.seed bc) ∧
        (y.sync = false → good → (t.chan c).goodSync = y.goodSync + 1 ∧ (t.chan c).sync = decide (3 ≤ y.goodSync)) ∧
        (y.sync = false → ¬ good → (t.chan c).goodSync = 0 ∧ (t.chan c).sync = false) ∧
        (y.sync = true → ¬ inPlace → t = s1) ∧
        (y.sync = true → inPlace → (t.chan c).blockCount = y.blockCount + 1 ∧
          (t.chan c).rxLine.seed = LineCode.seed (y.blockCount + 1)) ∧
        (y.sync = true → good → (t.chan c).sync = true ∧ (t.chan c).badSync = 0) ∧
        (y.sync = true → inPlace → ¬ good → (t.chan c).badSync = y.badSync + 1 ∧ (t.chan c).sync = decide (y.badSync < 3)))) ∧
    (s'.chCoding c = 2 → (s'.lane c).straddle = false →
      (s'.cisRawRoom c = false → (s'.cis c).resetting = false → s.completes (.rawWordReceived c w dt) (fun t =>
        t.reg (aCis c + 0x84) = satAdd (s'.reg (aCis c + 0x84)) 1 ∧ t.cisterns = s'.cisterns)) ∧
      (s'.cis c = {} → s.completes (.rawWordReceived c w dt) (fun t =>
        (t.cis c).frames = [{ bytes := word64Bytes w, shown := true }] ∧ t.lanes = s'.lanes))) ∧
    (s'.chCoding c = 2 → (s'.lane c).straddle = true → s.completes (.rawWordReceived c w dt) (fun t =>
      (t.lane c).straddle = false ∧ t.cisterns = s'.cisterns ∧ t.regs = s'.regs))

/-- R209, R210, R215-R218. -/
def Obligations.CisternReads : Prop :=
  ∀ (s : State) (i dt : Nat) (f : CisFrame) (rest : List CisFrame), i < 272 →
    let s' := s.advance dt
    let one := fun (s : State) => (s.cis i).frames = f :: rest ∧ f.closed = true ∧ f.shown = true ∧ f.begun = false ∧
      f.taken = 0 ∧ 1 ≤ f.bytes.length ∧ f.bytes.length ≤ s.cisOutB i ∧ (s.cis i).dropping = false ∧
      (s.cis i).abortOwed = false ∧ f.weak = []
    let takes := s'.cisSink i = 1 ∧ s'.portClocked (s'.cisTerr i) 1 = true ∧ s'.cisClocked i = true ∧
      s'.pathCut (portOf (.cistern i)) (terracePort (s'.cisTerr i)) = false ∧
      s'.inputBit (s'.cisTerr i) (.hard (.rdTake i)) = true
    let others := fun (s t : State) => ∀ j, j ≠ i → t.cis j = s.cis j
    (∀ who, Accessor.ok who = true → s.mayAccess who false (aCis i + 0x40) = true →
      (one s → (s.readWord (aCis i + 0x40)).1 = BitVec.ofNat 32 (2 ^ 31 + 2 ^ 30 + 2 ^ 29 +
          (if f.abort then 2 ^ 28 else 0) +
          (if f.bytes.length < s.cisOutB i then f.bytes.length * 65536 else 0)) ||| BitVec.ofNat 32 f.len ∧
        s.completes (.cisRdTagRead who i) (fun t => (t.cis i).frames = rest ∧ others s t ∧ t.regs = s.regs ∧
          Table.get (fun _ => 0) t.latch ((aCis i + 0x44) / 4) = beWord f.bytes ∧
          ∀ k, k < 8 → Table.get (fun _ => 0) t.latch ((aCis i + 0x44) / 4 + k) = (s.cisHead i).2.getD k 0)) ∧
      ((s.cis i).frames = [] → (s.cis i).abortOwed = false → (s.readWord (aCis i + 0x40)).1 = 0 ∧
        s.completes (.cisRdTagRead who i) (fun t => t.cisterns = s.cisterns ∧ t.regs = s.regs ∧
          ∀ k, k < 8 → Table.get (fun _ => 0) t.latch ((aCis i + 0x44) / 4 + k) = 0))) ∧
    (s'.live = true → takes → one s' → s.completes (.cisternFabricRead i dt) (fun t =>
      (t.cis i).frames = rest ∧ others s' t ∧ t.regs = s'.regs)) ∧
    (¬ takes → exec (.cisternFabricRead i dt) s = .next s') ∧
    (∀ who, Accessor.ok who = true → s.mayAccess who true (aCis i + 0x10) = true → s.feed i = none →
      (one s → s.completes (.drop who i) (fun t => (t.cis i).frames = rest ∧ (t.cis i).dropping = false ∧ others s t ∧
        t.reg (aCis i + 0x8C) = satAdd (s.reg (aCis i + 0x8C)) 1)) ∧
      ((s.cis i).frames = [] → (s.cis i).dropping = false →
        s.completes (.drop who i) (fun t => { t with tick := s.tick } = s)) ∧
      ((s.cis i).frames = f :: rest → f.closed = false → (s.cis i).dropping = false →
        s.completes (.drop who i) (fun t => (t.cis i).dropping = true ∧ bit (t.reg (aCis i + 0x10)) 0 = true ∧
          t.reg (aCis i + 0x8C) = s.reg (aCis i + 0x8C))) ∧
      ((s.cis i).dropping = false → s.completes (.flush who i) (fun t => (t.cis i).frames = [] ∧
        (t.cis i).flushing = true ∧ bit (t.reg (aCis i + 0x10)) 1 = true ∧ others s t ∧
        t.reg (aCis i + 0x94) = satAdd (s.reg (aCis i + 0x94)) (s.cis i).frames.length))) ∧
    (s'.live = true → (s'.cis i).flushing = true → s.completes (.flushDone i dt) (fun t => others s' t ∧
      (bit (s'.askedNow (aCis i + 0x10)) 1 = false → t.cis i = { s'.cis i with flushing := false } ∧
        bit (t.reg (aCis i + 0x10)) 1 = false) ∧
      (bit (s'.askedNow (aCis i + 0x10)) 1 = true → (t.cis i).frames = [] ∧ (t.cis i).flushing = true ∧
        bit (t.reg (aCis i + 0x10)) 1 = true))) ∧
    (s'.live = true → (s'.cis i).resetting = false → (s'.cis i).held = [] → (s'.cis i).dropping = false → ∀ read,
      s.completes (.pointerMismatch i read dt) (fun t => (t.cis i).frames = [] ∧ (t.cis i).resetting = true ∧
        bit (t.reg (aCis i + 0xC)) 31 = true ∧ bit (t.reg (aCis i + 0xC)) 30 = read ∧ others s' t ∧
        t.reg (aCis i + 0x94) = satAdd (s'.reg (aCis i + 0x94)) (s'.cis i).frames.length ∧
        ((s'.cis i).frames = f :: rest → (t.cis i).abortOwed = ((s'.cis i).abortOwed || f.begun)))) ∧
    (s'.live = true → (s'.cis i).resetting = true →
      s.completes (.forcedResetEnd i dt) (fun t => t.cis i = { s'.cis i with resetting := false } ∧
        t.reg (aCis i + 0x98) = satAdd (s'.reg (aCis i + 0x98)) 1 ∧
        s'.logs t 0x36 (cisId i) (if bit (s'.reg (aCis i + 0xC)) 30 then 1 else 0))) ∧
    (∀ hd hs, s'.live = true → (s'.cis i).held = hd :: hs → hd.until_ ≤ s'.now →
      s.completes (.cisternReadStallExpiry i dt) (fun t => t.cis i = { s'.cis i with held := hs } ∧ t.regs = s'.regs ∧
        (∀ k, k < 8 → Table.get (fun _ => 0) t.latch ((aCis i + 0x44) / 4 + k) = 0) ∧
        tagAnswer hd.pkt 0 (List.replicate 8 0) ∈ (t.target hd.pkt.src hd.pkt.dst).stored ∧
        t.rw.air = s'.rw.air ++ [tagAnswer hd.pkt 0 (List.replicate 8 0)]))

/-- R207, R208, R210, R219. -/
def Obligations.CisternWrites : Prop :=
  ∀ (s : State) (who : Accessor) (i dt : Nat) (value : Word), Accessor.ok who = true → 144 ≤ i → i < 272 →
    let s' := s.advance dt
    let others := fun (s t : State) => ∀ j, j ≠ i → t.cis j = s.cis j
    (s.mayAccess who true (aCis i) = true →
      let u := s.meetCairns (aCis i)
      let r := (u.cisCheck i (value ||| 1)).1
      (s.firesFirst (aCis i) = [] → u = s) ∧
      (bit (u.reg (aCis i)) 0 = false → r = 0 → s.completes (.cisternEnable who i value) (fun t => bit (t.reg (aCis i)) 0 = true ∧
        fld (t.reg (aCis i)) 11 5 = fld value 11 5 ∧ bit (t.reg (aCis i + 4)) 30 = true ∧
        u.onlyRegs t [aCis i, aCis i + 4])) ∧
      (bit (u.reg (aCis i)) 0 = false → r ≠ 0 → s.completes (.cisternEnable who i value) (fun t => u.onlyRegs t [aCis i + 4] ∧
        fld (t.reg (aCis i + 4)) 23 16 = r.toNat ∧ bit (t.reg (aCis i + 4)) 30 = false))) ∧
    (s.mayAccess who true (aCis i + 0x20) = true →
      (s.cisByWindow i = true → s.cisEn i = true → s.cis i = {} → s.cisCut i = 0 →
        s.completes (.cisWrDataWrite who i value) (fun t =>
          (t.cis i).frames = [{ bytes := wordBytes value }] ∧ others s t ∧ t.regs = s.regs)) ∧
      (s.cisByWindow i = false ∨ s.cisEn i = false ∨ s.cisRoom i = false →
        exec (.cisWrDataWrite who i value) s = .next s)) ∧
    (s.mayAccess who true (aCis i + 0x24) = true →
      (s.cisByWindow i = true → (s.cis i).frames = [] → (s.cis i).resetting = false → (s.cis i).skipping = false →
        exec (.cisWrEndWrite who i value) s = .next s) ∧
      (∀ f, s.cisByWindow i = true → s.cis i = { frames := [f] } → f.closed = false → f.shown = false →
        let kept := if value.toNat % 4 = 0 then f.bytes else f.bytes.take (f.bytes.length - (4 - value.toNat % 4))
        s.completes (.cisWrEndWrite who i value) (fun t => others s t ∧
          (t.cis i).frames = [{ f with bytes := kept, closed := true, abort := false, shown := true, len := kept.length }] ∧
          t.reg (aCis i + 0x80) = satAdd (s.reg (aCis i + 0x80)) 1))) ∧
    (∀ bytes eof, s'.live = true →
      (s'.portClocked (i - 144) 0 = true → s'.cisEn i = true → s'.cisByWindow i = false → s'.cis i = {} → s'.cisCut i = 0 →
        bytes.length = (if fld (s'.reg (aCis i)) 7 6 = 0 then 4 else 8) → s'.cisWrites i bytes.length bytes eof = true →
        s.completes (.cisternFabricWrite i bytes eof dt) (fun t => others s' t ∧
          (eof = false → (t.cis i).frames = [{ bytes := bytes }]) ∧
          (eof = true → (t.cis i).frames = [{ bytes := bytes, closed := true, shown := true, len := bytes.length }] ∧
            t.reg (aCis i + 0x80) = satAdd (s'.reg (aCis i + 0x80)) 1))) ∧
      (s'.cisEn i = false ∨ s'.cisByWindow i = true ∨ s'.cisRoom i = false ∨ (s'.cis i).flushing = true ∨
          (s'.cis i).resetting = true ∨ s'.portClocked (i - 144) 0 = false ∨
          s'.cisWrites i (if fld (s'.reg (aCis i)) 7 6 = 0 then 4 else 8) bytes eof = false →
        exec (.cisternFabricWrite i bytes eof dt) s = .next s'))

/-- R221-R237, R244, R247, R248, R254. -/
def Obligations.OrchardQueues : Prop :=
  ∀ (s : State) (who : Accessor) (r w q t0 len dt : Nat) (value : Word) (bytes : List Byte) (hd : HeldSource)
    (hs : List HeldSource), Accessor.ok who = true → s.weak = [] →
    (s.advance dt).weak = [] → r < 4 → w < 16 → q < 65536 → t0 < 128 →
    let rq := queueRidge q
    let others := fun (s t : State) => ∀ p, p ≠ q → t.queue p = s.queue p
    -- the decision for a whole frame of n cells, and what it leaves
    let charged := fun (s t : State) (q n : Nat) =>
      (t.queue q).node = (s.queue q).node + n ∧
      (t.classNode (queueRidge q) (s.qClass q)).count = (s.classNode (queueRidge q) (s.qClass q)).count + n ∧
      (t.ridgeNode (queueRidge q)).count = (s.ridgeNode (queueRidge q)).count + n ∧
      t.orc.device.count = s.orc.device.count + n ∧
      (t.queue q).xoff = ((s.queue q).xoff || decide (s.qPr q 2 ≤ (s.queue q).node + n)) ∧
      t.reg (aOrc (queueRidge q) + 0x90) = satAdd (s.reg (aOrc (queueRidge q) + 0x90)) 1
    let decided := fun (s : State) (i : Instr) (src : State) (abort : Bool) =>
      let n := cdiv bytes.length 256
      (src.admits q n = true → ∀ cs, src.allocCells rq n (src.frees []) = some cs →
        (abort = false → s.completes i (fun t => charged src t q n ∧ others src t ∧
          (t.queue q).frames = (src.queue q).frames ++ [{ bytes := bytes, cells := cs }] ∧ t.orc.held = src.orc.held)) ∧
        (abort = true → s.completes i (fun t => (t.queue q).frames = (src.queue q).frames ∧
          (t.queue q).node = (src.queue q).node ∧ t.orc.held = src.orc.held))) ∧
      (src.admits q n = false → s.completes i (fun t => t.orc.queues = src.orc.queues ∧
        t.reg (aOrc rq + 0x94) = satAdd (src.reg (aOrc rq + 0x94)) 1 ∧
        (src.qHold q = false → src.onlyRegs t [aOrc rq + 0x94]) ∧
        (src.qHold q = true → t.orc.held = src.orc.held ++
          [{ src := .port t0 q len bytes abort, queue := q, cells := [] }]))) ∧
      (src.admits q n = true → src.allocCells rq n (src.frees []) = none → src.qHold q = false →
        s.completes i (fun t => src.onlyRegs t [aOrc rq + 0x98] ∧
          t.reg (aOrc rq + 0x98) = satAdd (src.reg (aOrc rq + 0x98)) 1))
    let s' := s.advance dt
    let frame := len = bytes.length ∧ 0 < bytes.length ∧ bytes.length ≤ 16384
    let joined := fun (s : State) (t : Nat) => s.pathCut (terracePort t) (groupPort (4 * rq)) = false
    let asks := s'.inputBit t0 (.hard .dqTake) = true ∧ s'.hardSpells t0 .queueNo 16 q = true
    let isHead := fun (f : OFrame) (rest : List OFrame) => (s.queue q).frames = f :: rest ∧ f.badCells = [] ∧ f.weak = []
    (s.mayAccess who true (aQueue q) = true →
      let c := s.queueCheck q (value ||| 0x80000000)
      (s.queueEn q = false → c.1 = 0 → s.completes (.queueEnable who q value) (fun t =>
        t.reg (aQueue q) = (value ||| 0x80000000) &&& 0xFFFEFFFF ∧ bit (t.reg (aOrc rq + 4)) 30 = true ∧
        t.queue q = { s.queue q with fault := false } ∧ others s t ∧
        ∀ a, a ≠ aQueue q → a ≠ aOrc rq + 4 → t.reg a = s.reg a)) ∧
      (s.queueEn q = false → c.1 ≠ 0 → s.completes (.queueEnable who q value) (fun t =>
        s.onlyRegs t [aOrc rq + 4] ∧ fld (t.reg (aOrc rq + 4)) 23 16 = c.1.toNat ∧ bit (t.reg (aOrc rq + 4)) 30 = false)) ∧
      (s.queueEn q = true → s.orc.windows = [] → s.orc.feeds = [] → s.orc.held = [] →
        (∀ f, f ∈ (s.queue q).frames → f.badCells = []) → s.completes (.queueDisable who q value) (fun t =>
          t.queueEn q = false ∧ (t.queue q).frames = [] ∧ (t.queue q).pages = [] ∧ (t.queue q).node = 0 ∧
          (t.queue q).xoff = false ∧ others s t ∧
          ((s.qSink q ≠ 1 ∨ ∀ f, (s.queue q).frames.head? = some f → f.taken = 0) → t.reg (aOrc rq + 0x9C) =
            satAdd (s.reg (aOrc rq + 0x9C)) (s.queue q).frames.length) ∧
          (∀ f rest, s.qSink q = 1 → (s.queue q).frames = f :: rest → f.taken ≠ 0 → f.abort = false →
            let c := s.launchTarget (s.rf (aQueue q) 15 0 / 256)
            let n := s.rf (aQueue q) 15 0 % 8
            t.reg (aOrc rq + 0x9C) = satAdd (s.reg (aOrc rq + 0x9C)) rest.length ∧
            t.lq c n = s.lq c n ++ [{ len := f.bytes.length, bytes := f.bytes, complete := true }])))) ∧
    (s.mayAccess who true (aOrc r) = true →
      let c := s.orcCheck r (value ||| 1)
      (s.orcEn r = false → c.1 = 0 → s.completes (.orchardEnable who r value) (fun t =>
        s.onlyRegs t [aOrc r, aOrc r + 4] ∧ t.reg (aOrc r) = (value ||| 1) &&& 0x3F07 ∧
        bit (t.reg (aOrc r + 4)) 30 = true)) ∧
      (s.orcEn r = false → c.1 ≠ 0 → s.completes (.orchardEnable who r value) (fun t =>
        s.onlyRegs t [aOrc r + 4] ∧ fld (t.reg (aOrc r + 4)) 23 16 = c.1.toNat)) ∧
      (s.orcEn r = true → s.completes (.orchardDisable who r value) (fun t => t.orcEn r = false ∧
        (t.oridge r).spillUsed = [] ∧
        (rq = r → t.queueEn q = false ∧ (s.queueEn q = true → (t.queue q).frames = [] ∧ (t.queue q).pages = []))))) ∧
    (s'.portClocked t0 2 = false ∨ s'.portHeld t0 = true ∨ ¬ joined s' t0 → ∀ l bs abort,
      exec (.frameAdmission (.port t0 q l bs abort) dt) s = .next s') ∧
    (s'.live = true → s'.portClocked t0 2 = true → frame → s'.portHeld t0 = false → joined s' t0 →
      (s'.qLive q = true → ∀ abort, decided s (.frameAdmission (.port t0 q len bytes abort) dt) s' abort) ∧
      (s'.qLive q = false → ∀ abort, s.completes (.frameAdmission (.port t0 q len bytes abort) dt) (fun t =>
        s'.onlyRegs t [aOrc rq + 0x9C] ∧ t.reg (aOrc rq + 0x9C) = satAdd (s'.reg (aOrc rq + 0x9C)) 1))) ∧
    (s'.live = true → s'.orc.held = hd :: hs → hd = { src := .port t0 q len bytes false, queue := q, cells := [] } → frame →
      s'.qLive q = true → joined s' t0 → decided s (.heldAdmissionRetry 0 dt) { s' with orc := { s'.orc with held := hs } } false) ∧
    (s'.portClocked t0 2 = false ∨ ¬ joined s' t0 ∨ ¬ asks → exec (.orchardDequeue t0 q dt) s = .next s') ∧
    (∀ f rest, s'.live = true → s'.portClocked t0 2 = true → joined s' t0 → asks →
      (s'.qSink q = 1 ∨ (∃ o, (s'.queue q).owner = some o ∧ o ≠ .port t0) ∨ (s'.queue q).frames = [] →
        exec (.orchardDequeue t0 q dt) s = .next s') ∧
      (s'.dqReady q (.port t0) = true → (s'.queue q).frames = f :: rest → f.badCells = [] → f.weak = [] →
        (f.bytes.length ≤ f.taken + 32 → s.completes (.orchardDequeue t0 q dt) (fun t => (t.queue q).frames = rest ∧
          (t.queue q).owner = none ∧ (t.queue q).node = (s'.queue q).node - (f.cells.length - f.freed) ∧ others s' t)) ∧
        (f.taken + 32 < f.bytes.length → s.completes (.orchardDequeue t0 q dt) (fun t =>
          (t.queue q).frames = { f with taken := f.taken + 32, freed := (f.taken + 32) / 256 } :: rest ∧
          (t.queue q).owner = some (.port t0) ∧
          (t.queue q).node = (s'.queue q).node - ((f.taken + 32) / 256 - f.freed) ∧ others s' t)))) ∧
    ((s'.live = true → s'.portClocked t0 4 = true → s'.inputBit t0 (.hard .pressAsk) = true →
        s'.hardSpells t0 .queueNo 16 q = true → s.completes (.pressureLookup t0 q dt) (fun t =>
          t = s'.modUser t0 (fun u => { u with asks := u.asks ++ [(2, q)] }))) ∧
      (s'.portClocked t0 4 = false ∨ s'.inputBit t0 (.hard .pressAsk) = false ∨ s'.hardSpells t0 .queueNo 16 q = false →
        exec (.pressureLookup t0 q dt) s = .next s') ∧
      ((s.queue q).node < 2 ^ 28 → bit (s.readWord (aQueue q + 4)).1 29 = (s.queue q).xoff)) ∧
    (s.mayAccess who true (aWin r w) = true →
      let x := s.owin r w
      let qw := fld value 31 16
      let lw := fld value 15 0
      let n := cdiv lw 256
      (x.opened = false → queueRidge qw = r → s.qLive qw = true → 1 ≤ lw → lw ≤ 16384 → s.admits qw n = true →
        ∀ cs, s.allocCells r n (s.frees []) = some cs → s.completes (.orcEqHdrWrite who r w value) (fun t =>
          t.owin r w = { x with queue := qw, len := lw, bytes := [], cells := cs, opened := true } ∧ charged s t qw n ∧
          (t.queue qw).frames = (s.queue qw).frames)) ∧
      (x.opened = false → queueRidge qw = r → s.qLive qw = true → 1 ≤ lw → lw ≤ 16384 → s.admits qw n = false →
        s.completes (.orcEqHdrWrite who r w value) (fun t => t.owin r w = { x with cause := 0x32 } ∧
          t.orc.queues = s.orc.queues ∧ t.reg (aOrc r + 0x94) = satAdd (s.reg (aOrc r + 0x94)) 1)) ∧
      (x.opened = false → (queueRidge qw ≠ r ∨ s.qLive qw = false ∨ lw = 0 ∨ 16384 < lw) →
        s.completes (.orcEqHdrWrite who r w value) (fun t => t.owin r w = { x with cause := 0x02 } ∧
          t.orc.queues = s.orc.queues ∧ t.regs = s.regs)) ∧
      (x.opened = true → s.completes (.orcEqHdrWrite who r w value) (fun t => t.owin r w = { x with cause := 0x30 } ∧
        t.orc.queues = s.orc.queues ∧ t.regs = s.regs))) ∧
    (s.mayAccess who true (aWin r w + 4) = true →
      let x := s.owin r w
      (x.opened = false → exec (.orcEqDataWrite who r w value) s = .next s) ∧
      (x.opened = true → x.bytes.length + 4 < x.len → s.completes (.orcEqDataWrite who r w value) (fun t =>
        t.owin r w = { x with bytes := x.bytes ++ wordBytes value } ∧ t.orc.queues = s.orc.queues ∧ t.regs = s.regs)) ∧
      (x.opened = true → x.bytes.length < x.len → x.len ≤ x.bytes.length + 4 → x.cells.length = cdiv x.len 256 →
        s.completes (.orcEqDataWrite who r w value) (fun t => (t.owin r w).opened = false ∧
          (t.queue x.queue).frames = (s.queue x.queue).frames ++
            [{ bytes := (x.bytes ++ wordBytes value).take x.len, cells := x.cells }]))) ∧
    (s.mayAccess who false (aWin r w + 0x10) = true → s.rf (aWin r w + 0xC) 15 0 = q → rq = r → ∀ f rest,
      ((s.queue q).frames = [] → exec (.orcDqTagRead who r w) s = .next s ∧ (s.readWord (aWin r w + 0x10)).1 = 0) ∧
      (s.qSink q = 1 → exec (.orcDqTagRead who r w) s = .next s ∧ (s.readWord (aWin r w + 0x10)).1 = 0) ∧
      (s.dqReady q (.window r w) = true → isHead f rest → f.taken = 0 → f.bytes.length ≤ 4 → 1 ≤ f.bytes.length →
        (s.readWord (aWin r w + 0x10)).1 = BitVec.ofNat 32 (2 ^ 31 + 2 ^ 30 + 2 ^ 29 + (if f.abort then 2 ^ 28 else 0) +
          (if f.bytes.length < 4 then f.bytes.length * 65536 else 0) + f.bytes.length) ∧
        s.completes (.orcDqTagRead who r w) (fun t => (t.queue q).frames = rest ∧ (t.queue q).owner = none ∧
          t.reg (aWin r w + 0x14) = beWord f.bytes ∧
          (t.queue q).node = (s.queue q).node - (f.cells.length - f.freed) ∧ others s t)) ∧
      (s.dqReady q (.window r w) = true → isHead f rest → f.taken = 0 → 4 < f.bytes.length →
        s.completes (.orcDqTagRead who r w) (fun t => t.reg (aWin r w + 0x14) = beWord (f.bytes.take 4) ∧
          (t.queue q).frames = { f with taken := 4, freed := 0 } :: rest ∧
          (t.queue q).owner = some (.window r w) ∧ others s t))) ∧
    (∀ f rest, s'.live = true → s'.qLive q = true → s'.qSink q = 1 → (s'.queue q).frames = f :: rest → f.badCells = [] → f.weak = [] →
      let c := s'.rf (aQueue q) 15 0 / 256
      let n := s'.rf (aQueue q) 15 0 % 8
      let l := s'.launchTarget c
      let cut := s'.pathCut (groupPort (4 * rq)) (quadPort (l / 4))
      (cut = false → s'.chEn c = true → s'.inService l = true → s'.lqRoom l n f.bytes.length = true → inDram ∉ f.cells → f.abort = false →
        s.completes (.orchardLaunchMove q dt) (fun t => (t.queue q).frames = rest ∧
          t.lq l n = s'.lq l n ++ [{ len := f.bytes.length, bytes := f.bytes, complete := true }] ∧
          (t.queue q).node = (s'.queue q).node - (f.cells.length - f.freed) ∧ others s' t)) ∧
      (cut = false → s'.chEn c = true → s'.inService l = true → s'.lqRoom l n f.bytes.length = true → inDram ∈ f.cells →
        s.completes (.orchardLaunchMove q dt) (fun t => (t.queue q).stalled = true ∧ t.chans = s'.chans ∧
          (t.queue q).frames = { f with taken := 256 * (f.cells.takeWhile (fun k => decide (k ≠ inDram))).length } :: rest ∧
          (t.queue q).node = (s'.queue q).node ∧ others s' t)) ∧
      (cut = true ∨ s'.chEn c = false ∨ s'.inService l = false ∨ s'.lqRoom l n f.bytes.length = false →
        exec (.orchardLaunchMove q dt) s = .next s'))

/-- R239-R246, R250-R253. -/
def Obligations.OrchardPages : Prop :=
  ∀ (s : State) (r q dt : Nat) (f : OFrame) (n : TreeNode) (rec_ : Bool), (s.advance dt).weak = [] → r < 4 → q < 65536 → queueRidge q = r →
    let s' := s.advance dt
    let x := s'.queue q
    s'.live = true →
    (∀ page, s'.orcEn r = true → s'.rb (aOrc r) 1 = true → s'.nextFetch r = none → s'.nextSpill r = some q →
      s'.pickPage r = some page → x.pages = [] → x.frames = [f] → f.freed = 0 → f.weak = [] → f.badCells = [] →
      s'.orcFetch r + 16 ≤ f.cells.length →
      s.completes (.pageSpill r dt) (fun t =>
        (t.queue q).frames = [{ f with cells :=
          (f.cells.take (s'.orcFetch r) ++ List.replicate 16 inDram ++ f.cells.drop (s'.orcFetch r + 16)) }] ∧ (t.queue q).pages = [page] ∧ (t.queue q).node = x.node ∧
        (t.oridge r).spillUsed = (s'.oridge r).spillUsed ++ [page] ∧ page ∉ (s'.oridge r).spillUsed ∧
        t.reg (aOrc r + 0xA0) = satAdd (s'.reg (aOrc r + 0xA0)) 1)) ∧
    (s'.orcEn r = true → s'.nextFetch r = none → s'.nextSpill r = none → exec (.pageSpill r dt) s = .next s') ∧
    (∀ page marks, s'.nextFetch r = some q → x.pages = [page] → s'.allocCells r 16 (s'.frees []) = some marks →
      s'.spillKey r = none → s'.stopPend = false → x.frames = [f] → f.freed = 0 → f.cells = List.replicate 16 inDram → f.bytes.length = 4096 →
      let d := 4 * r + page % 4
      (∀ data : Nat → List Byte, (∀ k, (data k).length = 64) →
        (∀ k, k < 64 → s'.drLine d (page / 4 * 64 + k) = plainLine d (page / 4 * 64 + k) (data k)) →
        s.completes (.pageFetch r [] dt) (fun t =>
          (t.queue q).frames = [{ f with bytes := (List.range 64).flatMap data, cells := marks }] ∧
          (t.queue q).pages = [] ∧ (t.queue q).node = x.node ∧ page ∉ (t.oridge r).spillUsed ∧
          t.reg (aOrc r + 0xA4) = satAdd (s'.reg (aOrc r + 0xA4)) 1)) ∧
      s.completes (.pageFetch r [.uncorrectable] dt) (fun t => (∀ g, g ∈ (t.queue q).frames → g.abort = true) ∧
        (t.queue q).frames.length = 1 ∧ (t.queue q).pages = [] ∧
        t.reg (aDram d + 0x24) = satAdd (s'.reg (aDram d + 0x24)) 1 ∧ s'.logs t 0x02 (dramId d) (w32 (64 * (page / 4 * 64))))) ∧
    (s'.nextFetch r = none → exec (.pageFetch r [] dt) s = .next s') ∧
    (State.nodeOk n = true →
      let blk := ridgeId (State.nodeRidge n)
      let untrusted := fun (t : State) => match n with
        | .queue p => (t.queue p).untrust = true ∧ (t.queue p).fallback = 0 ∧ (t.queue p).node = (s'.queue p).node
        | .cls p c => (t.classNode p c).untrust = true ∧ (t.classNode p c).fallback = 0
        | .ridge p => (t.ridgeNode p).untrust = true ∧ (t.ridgeNode p).fallback = 0
        | .device => t.orc.device.untrust = true ∧ t.orc.device.fallback = 0
      let trusted := fun (t : State) => match n with
        | .queue p => (t.queue p).untrust = false ∧ (t.queue p).node = (s'.queue p).node
        | .cls p c => (t.classNode p c).untrust = false
        | .ridge p => (t.ridgeNode p).untrust = false
        | .device => t.orc.device.untrust = false
      s.completes (.counterNodeDoubleError n rec_ dt) (fun t => untrusted t ∧
        bit (t.reg (aOrc (State.nodeRidge n) + 8)) 26 = true ∧ (∃ e, e ∈ t.orc.audits ∧ e.1 = n) ∧
        s'.logs t 0x14 blk (State.nodeWord n)) ∧
      (∀ rest, s'.orc.audits = (n, rec_) :: rest → s.completes (.auditEnd n dt) (fun t => trusted t ∧
        t.orc.audits = rest ∧ s'.logs t 0x16 blk (State.nodeWord n))) ∧
      (s'.orc.audits = [] → exec (.auditEnd n dt) s = .next s')) ∧
    (∀ k, x.untrust = true →
      let cn := s'.classNode r (s'.qClass q)
      let rn := s'.ridgeNode r
      let dn := s'.orc.device
      cn.untrust = false → rn.untrust = false → dn.untrust = false →
      (s'.admits q k = true ↔ x.fallback + k ≤ s'.qPr q 5 ∧
        cn.count + k ≤ s'.rf (aOrc r + 0x404 + 8 * s'.qClass q) 27 0 ∧ rn.count + k ≤ s'.rf (aOrc r + 0x14) 27 0 ∧
        dn.count + k ≤ s'.rf 0x4000C4 27 0)) ∧
    (s'.orc.windows = [] → s'.orc.feeds = [] → s'.orc.held = [] → (∀ g, g ∈ x.frames → g.badCells = []) → x.pages = [] →
      s.completes (.descriptorUncorrectable q dt) (fun t => t.queueEn q = false ∧ (t.queue q).fault = true ∧
        (t.queue q).frames = [] ∧ (t.queue q).node = 0 ∧
        t.reg (aOrc r + 0x9C) = satAdd (s'.reg (aOrc r + 0x9C)) x.frames.length ∧
        s'.logs t 0x17 (ridgeId r) (w32 q)))

/-- R258-R275. -/
def Obligations.RidgewayPackets : Prop :=
  ∀ (s : State) (p : RwPkt) (dt : Nat), portExists p.src = true → portExists p.dst = true →
    let s' := s.advance dt
    s'.live = true →
    let b := portBase p.dst
    let gap := (p.seq - (s'.target p.src p.dst).expect).toNat
    let s0 := (s'.land p).portSees p.dst p
    let arrives := isRequestKind p.kind = true ∧ s'.airFirst p = true
    let goesOn := arrives ∧ s'.rwBlocked p = 0
    let answered := fun (t : State) (k : RwKind) (reason : Byte) (data : Word) =>
      let r : RwPkt := {
        pri := p.pri, kind := k, dst := p.src, src := p.dst, seq := p.seq, reason := reason, addr := p.addr, data := data }
      r ∈ (t.target p.src p.dst).stored ∧ r ∈ t.rw.air
    let onlyRw := fun (s t : State) => ({ t with rw := s.rw, trace := s.trace, tick := s.tick } : State) = s
    let noRoomWait := (∀ e q u, (s'.eng e).wait ≠ some (.room q u)) ∧ s'.rw.waiting = []
    (∀ cistern, isRequestKind p.kind = true → p.flits ≤ 63 → p.payload.length ≤ 4 + 8 * p.flits →
      s'.domainOn (portDomain p.src) = true →
      (s'.unacked p.src < 64 → s'.portTakes p.src p.dst = true → (∀ x, x ∈ s'.rw.waiting → x.src ≠ p.src) →
        let q := { p with pri := sendPri p cistern, seq := Table.get (fun _ => 0) s'.rw.nextSeq (series p.src p.dst) }
        s.completes (.requestAtTarget (.leaves p cistern) dt) (fun t => onlyRw s' t ∧ t.rw.air = s'.rw.air ++ [q] ∧
          t.rw.outstanding = s'.rw.outstanding ++
            [({ pkt := q, use := .other, eng := none, sentAt := s'.now, firstAt := s'.now } : Outstanding)] ∧
          Table.get (fun _ => 0) t.rw.nextSeq (series p.src p.dst) = q.seq + 1 ∧
          (t.stats p.src).requests = min (2 ^ 32 - 1) ((s'.stats p.src).requests + 1) ∧
          (t.stats p.src).flits = min (2 ^ 32 - 1) ((s'.stats p.src).flits + 1 + p.flits))) ∧
      (64 ≤ s'.unacked p.src ∨ s'.portTakes p.src p.dst = false ∨ (∃ x, x ∈ s'.rw.waiting ∧ x.src = p.src) →
        exec (.requestAtTarget (.leaves p cistern) dt) s =
          .next { s' with rw := { s'.rw with waiting := s'.rw.waiting ++ [{ p with pri := sendPri p cistern }] } })) ∧
    (s'.airFirst p = false → exec (.requestAtTarget (.arrives p) dt) s = .next s') ∧
    (∀ r, goesOn → 65472 ≤ gap →
      (s'.target p.src p.dst).stored.find? (fun r => decide (r.seq = p.seq)) = some r →
      s.completes (.requestAtTarget (.arrives p) dt) (fun t => (s0.fly r).onlyRegs t [b + 0x84] ∧
        t.reg (b + 0x84) = satAdd (s'.reg (b + 0x84)) 1)) ∧
    (goesOn → 1 ≤ gap → gap ≤ 63 → s.completes (.requestAtTarget (.arrives p) dt) (fun t => s0.onlyRegs t [b + 0x88] ∧
      t.reg (b + 0x88) = satAdd (s'.reg (b + 0x88)) 1)) ∧
    (goesOn → 64 ≤ gap → gap < 65472 → s.completes (.requestAtTarget (.arrives p) dt) (fun t =>
      t.reg (b + 0x88) = satAdd (s'.reg (b + 0x88)) 1 ∧ t.rw = s0.rw ∧ (s'.logs t 0x21 (portDomain p.dst)
        (w32 (p.dst / 8 % 16 * 256 + p.dst % 8))))) ∧
    (∀ e, arrives → s'.rwBlocked p = e → e ≠ 0 →
      s.completes (.requestAtTarget (.arrives p) dt) (fun t =>
        ({
          pri := p.pri, kind := if p.kind = .posted then .pack else .err, dst := p.src, src := p.dst, seq := p.seq,
          reason := e, addr := p.addr } : RwPkt) ∈ t.rw.air ∧
        (gap = 0 → (t.target p.src p.dst).expect = (s'.target p.src p.dst).expect + 1) ∧
        (gap ≠ 0 → t.rw.targets = s'.rw.targets) ∧ t.rw.outstanding = s'.rw.outstanding ∧
        (p.kind ≠ .posted → e = 0x1C → onlyRw s' t) ∧
        (p.kind = .posted → s'.logs t 0x22 (portDomain p.dst) p.addr) ∧
        (p.kind = .posted → e = 0x1C → t.reg (b + 0x8C) = satAdd (s'.reg (b + 0x8C)) 1) ∧
        (e = 0x07 → s'.portDead p.dst = true → t.reg (b + 0x90) = satAdd (s'.reg (b + 0x90)) 1))) ∧
    (goesOn → gap = 0 →
      let s1 := s0.rwAdvance p
      ((s1.target p.src p.dst).expect = (s'.target p.src p.dst).expect + 1) ∧
      (∀ k, p.kind = .reserved k → s.completes (.requestAtTarget (.arrives p) dt) (fun t => onlyRw s' t ∧
        answered t .err 0x02 0 ∧ (t.target p.src p.dst).expect = (s'.target p.src p.dst).expect + 1)) ∧
      (p.kind = .posted → p.flits ≠ 0 → State.memChannel p = none →
        (s1.frameTested p = false → s.completes (.requestAtTarget (.arrives p) dt) (fun t => onlyRw s' t ∧ answered t .pack 0 0)) ∧
        (s1.frameTested p = true → s.completes (.requestAtTarget (.arrives p) dt) (fun t => answered t .pack 0x30 0 ∧
          s'.logs t 0x22 (portDomain p.dst) p.addr))) ∧
      (∀ d, State.memChannel p = some d → p.kind = .read → p.reason.toNat % 64 = 0 → s'.rb (aOrc (d / 4)) 2 = false →
        s'.stopPend = false →
        (s'.drWorks d = false ∨ (s'.dr d).trained = false → s.completes (.requestAtTarget (.arrives p) dt) (fun t =>
          onlyRw s' t ∧ answered t .err 0x07 0)) ∧
        (s'.drWorks d = true → (s'.dr d).trained = true → s'.drBytes d < p.addr.toNat + 4 →
          s.completes (.requestAtTarget (.arrives p) dt) (fun t => onlyRw s' t ∧ answered t .err 0x08 0)) ∧
        (∀ data : List Byte, s'.drWorks d = true → (s'.dr d).trained = true → p.addr.toNat + 4 ≤ s'.drBytes d →
          p.addr.toNat % 64 + 4 ≤ 64 → data.length = 64 →
          s'.drLine d (p.addr.toNat / 64) = plainLine d (p.addr.toNat / 64) data →
          s.completes (.requestAtTarget (.arrives p) dt) (fun t => onlyRw s' t ∧
            answered t .rdata 0 (beWord ((data.drop (p.addr.toNat % 64)).take 4))))) ∧
      (State.memChannel p = none → ∀ pl o, placeOf p.addr.toNat = some (pl, o) → (∀ t, pl ≠ .window t) →
        portMay p.src pl (kindWrites p.kind) = true → servedAt p.dst pl = true → s1.accessError p.src pl o = 0 →
        s1.storedBad pl o = false →
        (p.kind = .read → s1.rwStalls pl o = none → p.reason.toNat % 64 = 0 →
          s.completes (.requestAtTarget (.arrives p) dt) (fun t =>
            onlyRw (s1.readWord p.addr.toNat).2 t ∧ answered t .rdata 0 (s1.readWord p.addr.toNat).1)) ∧
        (p.kind = .read → s1.rwStalls pl o = none → p.reason.toNat % 64 ≠ 0 →
          let n := p.reason.toNat % 64
          let first := s1.readWord p.addr.toNat
          let run := State.readRun p (3 + 8 * n) (p.addr.toNat + 4) [first.1] first.2
          (∀ i, pl = .cistern i → o = 0x40 → s.completes (.requestAtTarget (.arrives p) dt) (fun t =>
            tagAnswer p first.1 (first.2.cisLatched i) ∈ t.rw.air)) ∧
          ((∀ i, pl = .cistern i → o ≠ 0x40) → run.1 = 0 → s.completes (.requestAtTarget (.arrives p) dt) (fun t =>
            ∃ r, r ∈ t.rw.air ∧ r.kind = .rdata ∧ r.seq = p.seq ∧ r.data = first.1 ∧ r.flits = n ∧ r.payload = run.2.1 ∧
              r.payload.head? = some first.1 ∧ r.payload.length = 4 + 8 * n)) ∧
          ((∀ i, pl = .cistern i → o ≠ 0x40) → run.1 ≠ 0 → s.completes (.requestAtTarget (.arrives p) dt) (fun t =>
            answered t .err run.1 0))) ∧
        (p.kind = .modify →
          let u0 := s1.meetCairns p.addr.toNat
          let v := State.modifyWord (specIn pl o) (u0.peek p.addr.toNat) p.mask p.data
          let u := u0.writeWord p.addr.toNat v
          u0.dspHolds p.addr.toNat v = false → s.completes (.requestAtTarget (.arrives p) dt) (fun t => onlyRw u.1 t ∧
            (u.2 = 0 → answered t .rdata 0 (u0.peek p.addr.toNat)) ∧ (u.2 ≠ 0 → answered t .err u.2 0))) ∧
        (p.kind = .write → let u := (s1.meetCairns p.addr.toNat).writeWord p.addr.toNat p.data
          s1.dspHolds p.addr.toNat p.data = false → u.2 ≠ 0x03 → s.completes (.requestAtTarget (.arrives p) dt) (fun t => onlyRw u.1 t ∧
            (u.2 = 0 → answered t .done 0 0) ∧ (u.2 ≠ 0 → answered t .err u.2 0))) ∧
        (p.kind = .posted → p.flits = 0 → let u := (s1.meetCairns p.addr.toNat).writeWord p.addr.toNat p.data
          s1.dspHolds p.addr.toNat p.data = false →
          (u.2 = 0 → s.completes (.requestAtTarget (.arrives p) dt) (fun t => onlyRw u.1 t ∧ answered t .pack 0 0)) ∧
          (u.2 ≠ 0 → u.2 ≠ 0x03 → s.completes (.requestAtTarget (.arrives p) dt) (fun t => answered t .pack u.2 0 ∧
            u.1.logs t 0x22 (portDomain p.dst) p.addr))))) ∧
    (isResponseKind p.kind = true → p.kind ≠ .holding → s'.airFirst p = true →
      (s'.rwDropped p = true → exec (.responseAtInitiator p dt) s = .next (s'.land p)) ∧
      (s'.rwDropped p = false → s'.rwAnswered p = none → exec (.responseAtInitiator p dt) s = .next s0) ∧
      (s'.pathCut p.src p.dst = false → s'.rwDropped p = false) ∧
      (s'.pathCut p.src p.dst = true → p ∉ s'.rw.turned → s'.rwDropped p = true) ∧
      (∀ o, s'.rwDropped p = false → s'.rwAnswered p = some o → noRoomWait →
        (o.eng = none → s.completes (.responseAtInitiator p dt) (fun t => onlyRw s' t ∧ t.rw.targets = s'.rw.targets ∧
          t.rw.outstanding = s'.rw.outstanding.filter (fun x => decide (x ≠ o)) ∧ t.rw.air = s'.rw.air.erase p ∧
          (o.pkt.kind ≠ .posted → (t.stats o.pkt.src).completed = min (2 ^ 32 - 1) ((s'.stats o.pkt.src).completed + 1)) ∧
          (p.kind = .err → (t.stats o.pkt.src).errors = min (2 ^ 32 - 1) ((s'.stats o.pkt.src).errors + 1)))) ∧
        (∀ e rd, o.eng = some e → o.use = .load rd → (s'.eng e).wait = some (.load rd) → p.kind = .rdata →
          (s'.eng e).stopPending = false → (s'.eng e).dbg.stepping = false → (s'.eng e).dbg.watchHit = none →
          (s'.eng e).dbg.haltPending = false → s.completes (.responseAtInitiator p dt) (fun t =>
            t.eng e = ((({ s'.eng e with wait := none } : Engine).setG rd p.data).advance) ∧
            t.rw.outstanding = s'.rw.outstanding.filter (fun x => decide (x ≠ o)) ∧ t.regs = s'.regs)))) ∧
    (s'.airFirst p = false → exec (.responseAtInitiator p dt) s = .next s') ∧
    (p.kind = .holding → s'.airFirst p = true →
      (s'.pathCut p.src p.dst = false → s.completes (.holdingReceived p dt) (fun t => onlyRw s' t ∧
        t.rw.air = s'.rw.air.erase p ∧ t.rw.outstanding = s'.rw.outstanding.map (fun o =>
          if o.pkt.src = p.dst ∧ o.pkt.dst = p.src ∧ o.pkt.seq = p.seq then { o with sentAt := s'.now } else o))) ∧
      (s'.pathCut p.src p.dst = true → exec (.holdingReceived p dt) s = .next (s'.land p))) ∧
    (∀ pri told, s'.rwHeld p.dst p.src p.seq = some (pri, told) →
      (told + 10000000 ≤ s'.now → s.completes (.holdingSend p.dst p.src p.seq dt) (fun t =>
        t.rw.air = s'.rw.air ++ [{ pri := pri, kind := .holding, dst := p.src, src := p.dst, seq := p.seq }] ∧
        t.rw.outstanding = s'.rw.outstanding ∧ t.regs = s'.regs ∧ t.engines = s'.engines)) ∧
      (s'.now < told + 10000000 → exec (.holdingSend p.dst p.src p.seq dt) s = .next s')) ∧
    (s'.rwHeld p.dst p.src p.seq = none → exec (.holdingSend p.dst p.src p.seq dt) s = .next s') ∧
    (∀ o, s'.rw.outstanding = [o] → o.pkt = p →
      let late := s'.rf (portBase p.src) 7 0 * 1000000 ≤ s'.now - o.sentAt
      let held := s'.portsHeld (p.src / 0x80)
      (late → held = false → o.rounds < 3 → s.completes (.ridgewayTimeout p.src p.dst dt) (fun t => onlyRw s' t ∧
        t.rw.outstanding = [{ o with sentAt := s'.now, rounds := o.rounds + 1 }] ∧
        (s'.portDead p.src = false → t.rw.air = s'.rw.air ++ [p] ∧
          (t.stats p.src).resent = min (2 ^ 32 - 1) ((s'.stats p.src).resent + 1)) ∧
        (s'.portDead p.src = true → t.rw.air = s'.rw.air ∧
          ((s'.stats p.src).resent < 2 ^ 32 → (t.stats p.src).resent = (s'.stats p.src).resent)) ∧
        (t.stats p.src).requests = (s'.stats p.src).requests)) ∧
      (held = true → exec (.ridgewayTimeout p.src p.dst dt) s = .next s') ∧
      (late → held = false → 3 ≤ o.rounds → noRoomWait → o.eng = none → s.completes (.ridgewayTimeout p.src p.dst dt) (fun t =>
        t.rw.outstanding = [] ∧ s'.logs t 0x25 (portDomain p.src) p.addr)) ∧
      (¬ late → exec (.ridgewayTimeout p.src p.dst dt) s = .next s')) ∧
    (∀ r m input replays, r < 4 → m < 16 → State.inputExists m input = true → (s'.router (16 * r + m)).dead = false →
      s'.domainOn (ridgeId r) = true → p ∈ s'.rw.air →
      let entry := decide (input < 8) && isGatewayPort (r * 0x80 + m * 8 + input) && decide (portRidge p.src ≠ some r)
      let counters := fun (k : Nat) => (aRtr (16 * r + m) + k) ::
        (match linkOf p.src p.dst with | some n => if entry then [0x500100 + 8 * n + k] else [] | none => [])
      (s'.onPath p (16 * r + m) input = true →
        s.completes (.flitUncorrectable r m input p .corrected dt) (fun t =>
          s'.onlyRegs t (counters 0) ∧ ∀ a, a ∈ counters 0 → t.reg a = satAdd (s'.reg a) 1) ∧
        (replays < 4 → s.completes (.flitUncorrectable r m input p (.uncorrectable replays) dt) (fun t =>
          s'.onlyRegs t (counters 4) ∧ ∀ a, a ∈ counters 4 → t.reg a = satAdd (s'.reg a) 1)) ∧
        (4 ≤ replays → s.completes (.flitUncorrectable r m input p (.uncorrectable replays) dt) (fun t =>
          t.reg (aGw r + 0x80) = satAdd (s'.reg (aGw r + 0x80)) 1 ∧ t.rw.air = s'.rw.air.erase p ∧
          s'.logs t 0x21 (0x2800 + (16 * r + m)) (w32 (m * 256 + input)) ∧
          (15 ≤ s'.linkDiscards r m input → (t.router (16 * r + State.fartherEnd m input)).dead = true)))) ∧
      (s'.onPath p (16 * r + m) input = false → ∀ f, exec (.flitUncorrectable r m input p f dt) s = .next s')) ∧
    (∀ who r, Accessor.ok who = true → r < 5 →
      let base := if r = 4 then 0x500000 else aGw r
      s.mayAccess who true (base + 0x24) = true → portBase (s.rf (base + 0x20) 9 0) = base →
      s.completes (.rwStatClear who r) (fun t => onlyRw s t ∧
        t.stats (s.rf (base + 0x20) 9 0) = Table.get (fun _ => {}) s.tick.stats (s.rf (base + 0x20) 9 0) ∧
        t.rw.outstanding = s.rw.outstanding))

/-- R36, R269-R273, R336-R338, R554-R556. -/
def Obligations.RidgewayAndPower : Prop :=
  ∀ (s : State) (r m dt : Nat) (h : Hdr) (w : Word) (w1 : Word), r < 4 → m < 16 →
    let s' := s.advance dt
    let n := 16 * r + m
    let noneToward := fun (d : Nat) => ∀ o, o ∈ s.rw.outstanding → portDomain o.pkt.dst = d → portDomain o.pkt.src = d
    (s'.live = true → s'.domainOn (ridgeId r) = true → (s'.router n).dead = false →
      let x := s'.router n
      let isolated := fun (t : State) (cause : Nat) => (t.router n).dead = true ∧ (t.router n).cause = cause ∧
        t.portsHeld r = true ∧ t.reg (aGw r + 0xC) = w32 (cause * 16 + m) ∧ bit (t.peekGateway r 8) m = true
      (x.missed < 3 ∨ x.missedAt + 3000000 < s'.now → s.completes (.heartbeatMissed r m dt) (fun t =>
        s'.onlyRegs { t with rw := s'.rw } [aGw r + 0x94] ∧ t.reg (aGw r + 0x94) = satAdd (s'.reg (aGw r + 0x94)) 1 ∧
        (t.router n).dead = false)) ∧
      (3 ≤ x.missed → s'.now ≤ x.missedAt + 3000000 → s.completes (.heartbeatMissed r m dt) (fun t => isolated t 0 ∧
        t.reg (aGw r + 0x94) = satAdd (s'.reg (aGw r + 0x94)) 1)) ∧
      s.completes (.routerErrorReport r m dt) (fun t => isolated t 2)) ∧
    (s'.live = true → (s'.router n).switching = true → s'.pathClear n = true → s.completes (.routeTableSwitch r m dt) (fun t =>
      (t.router n).switching = false ∧ (t.router n).dead = (s'.router n).dead ∧ s'.logs t 0x13 (0x2800 + n) (w32 m))) ∧
    ((s'.router n).switching = false ∨ s'.pathClear n = false → exec (.routeTableSwitch r m dt) s = .next s') ∧
    (s'.live = true →
      (r ∉ s'.rw.cutGateways → s.completes (.gatewayLinkLoss (.gateway r) dt) (fun t => r ∈ t.rw.cutGateways ∧
        s'.logs t 0x02 (ridgeId r) (w32 r))) ∧
      (r ∉ s'.rw.cutLinks → s.completes (.gatewayLinkLoss (.interRidge r) dt) (fun t => r ∈ t.rw.cutLinks ∧
        t.reg (0x500104 + 8 * r) = satAdd (s'.reg (0x500104 + 8 * r)) 1 ∧ s'.logs t 0x02 5 (w32 r))) ∧
      (r ∉ s'.rw.cutHub → s.completes (.gatewayLinkLoss (.hubLink r) dt) (fun t => r ∈ t.rw.cutHub ∧
        t.reg (0x500134 + 8 * r) = satAdd (s'.reg (0x500134 + 8 * r)) 1)) ∧
      (r ∈ s'.rw.cutGateways ∨ r ∈ s'.rw.cutHub → s'.ridgeCut r = true ∧
        (∀ q, q < 4 → q ≠ r → s'.pathCut (r * 0x80) (q * 0x80) = true) ∧ s'.pathCut (r * 0x80) 0x200 = true) ∧
      (r ∈ s'.rw.cutLinks → ∀ q, q < 4 → linkEnds r q = true → s'.ridgeCut q = true) ∧
      (r ∈ s'.rw.cutGateways → exec (.gatewayLinkLoss (.gateway r) dt) s = .next s')) ∧
    (s.runs 0x59 h [w, w1] = true →
      let g := w.toNat
      (isGate g = false ∨ 1 < w1.toNat → s.replies (.gateSet h w w1) 0x59 h 2 2 [] (fun t => s.onlyGatehouse t)) ∧
      (isGate g = true → w1.toNat ≤ 1 → s.gateOpen g = decide (w1 = 1) →
        s.replies (.gateSet h w w1) 0x59 h 0 0 [] (fun t => s.onlyGatehouse t)) ∧
      (isGate g = true → w1.toNat ≤ 1 → s.gateOpen g ≠ decide (w1 = 1) →
        (s.gateCheck g (decide (w1 = 1)) ≠ 0 →
          s.replies (.gateSet h w w1) 0x59 h 2 (s.gateCheck g (decide (w1 = 1))) [] (fun t => s.onlyGatehouse t)) ∧
        (s.gateCheck g (decide (w1 = 1)) = 0 → g / 0x400 ≠ 1 → (g / 0x400 = 2 → w1 = 1 ∨ (s.terr (g % 0x400)).window = []) →
          s.replies (.gateSet h w w1) 0x59 h 0 0 [] (fun t => t.gateOpen g = decide (w1 = 1) ∧
            (∀ k, k ≠ g → t.gateOpen k = s.gateOpen k) ∧ t.regs = s.regs ∧
            (g / 0x400 = 8 → (t.dr (g % 0x400)).selfRef = (!decide (w1 = 1) && (s.dr (g % 0x400)).powered)))) ∧
        (s.gateCheck g (decide (w1 = 1)) = 0 → g / 0x400 = 1 → w1 = 0 → s.pwr.op = none →
          s.completes (.gateSet h w w1) (fun t => t.fence g = .closing ∧ t.pwr.op = some g ∧ t.pwr.opGate = true ∧
            t.gateOpen g = true ∧ ∃ c, t.gh.running = some c ∧ c.op = 0x59 ∧ c.begun = true)) ∧
        (s.gateCheck g (decide (w1 = 1)) = 0 → g / 0x400 = 1 → w1 = 1 → noneToward g →
          s.replies (.gateSet h w w1) 0x59 h 0 0 [] (fun t => t.gateOpen g = true ∧ t.fence g = .opened)))) ∧
    (s.runs 0x58 h [w] = true →
      let d := h.target.toNat
      let up := decide (w = 1)
      let on := !Table.get (fun _ => false) s.pwr.off d
      let r0 := s.powerCheck d up
      (d = 0 ∨ d ∉ allDomains ∨ 1 < w.toNat → s.replies (.domainPower h w) 0x58 h 2 2 [] (fun t => s.onlyGatehouse t)) ∧
      (d ≠ 0 → d ∈ allDomains → w.toNat ≤ 1 → on = up → (up = true → s.fence d ≠ .closing) →
        s.replies (.domainPower h w) 0x58 h 0 0 [] (fun t => t.pwr.off = s.pwr.off ∧ t.regs = s.regs ∧ t.rw = s.rw)) ∧
      (d ≠ 0 → d ∈ allDomains → w.toNat ≤ 1 → on = true → w = 1 → s.fence d = .closing →
        s.replies (.domainPower h w) 0x58 h 0 0 [] (fun t => t.pwr.off = s.pwr.off ∧ t.fence d = .opened)) ∧
      (d ≠ 0 → d ∈ allDomains → w.toNat ≤ 1 → on ≠ up → r0 ≠ 0 →
        s.replies (.domainPower h w) 0x58 h 2 r0 [] (fun t => t.pwr.off = s.pwr.off ∧ t.regs = s.regs ∧ t.rw = s.rw)) ∧
      (d ≠ 0 → d ∈ allDomains → w = 0 → on = true → r0 = 0 → s.behindDead d = false → s.pwr.op = none →
        s.completes (.domainPower h w) (fun t => t.fence d = .closing ∧ t.pwr.op = some d ∧ t.pwr.opGate = false ∧
          t.pwr.off = s.pwr.off ∧ ∃ c, t.gh.running = some c ∧ c.op = 0x58 ∧ c.begun = true)) ∧
      (d ≠ 0 → d ∈ allDomains → w = 0 → on = true → r0 = 0 → s.behindDead d = true → noneToward d →
        s.completes (.domainPower h w) (fun t => Table.get (fun _ => false) t.pwr.off d = true ∧ t.fence d = .closed ∧
          t.gh.running = none)) ∧
      (d ∈ allDomains → w = 1 → on = false → r0 = 0 → s.pwr.op = none →
        s.completes (.domainPower h w) (fun t => Table.get (fun _ => false) t.pwr.off d = false ∧ t.pwr.op = some d ∧
          t.pwr.opOn = true ∧ t.rw = s.rw ∧ (∀ g, t.gateOpen g = s.gateOpen g) ∧
          ∃ c, t.gh.running = some c ∧ c.op = 0x58 ∧ c.begun = true))) ∧
    (∀ d c, d ∈ allDomains → s'.live = true → s'.pwr.op = some d → s'.pwr.opOn = true → s'.gh.running = some c →
      c.begun = true → c.op = 0x58 → d / 0x400 ≠ 1 → d / 0x400 ≠ 2 →
      (∀ q, q ∈ s'.rw.outstanding → portDomain q.pkt.dst = d → portDomain q.pkt.src = d) →
      s.completes (.memoryFillEnd d dt) (fun t => Table.get (fun _ => false) t.pwr.filled d = true ∧ t.pwr.op = none ∧
        t.fence d = .opened ∧ (s'.gateOpen (parentOf d) = true → t.gateOpen d = true) ∧ s'.logs t 0x76 d (w32 d) ∧
        t.gh.running = none ∧ t.gh.held.status = 0 ∧ t.gh.held.tag = c.hdr.tag)) ∧
    (∀ blk port c, blk ∈ allDomains → portExists port = true → s'.live = true → s'.pwr.op = some blk →
      s'.pwr.opOn = false → s'.gh.running = some c → c.begun = true →
      (s'.drained blk = true → blk / 0x400 ≠ 1 → blk / 0x400 ≠ 2 → s'.pwr.opGate = false → c.op = 0x58 →
        s.completes (.fenceAcknowledge blk dt) (fun t => Table.get (fun _ => false) t.pwr.off blk = true ∧
          t.fence blk = .closed ∧ t.pwr.op = none ∧ t.gh.running = none ∧ t.gh.held.status = 0 ∧ t.gh.held.tag = c.hdr.tag)) ∧
      (s'.drained blk = true → blk / 0x400 = 1 → s'.pwr.opGate = true → c.op = 0x59 →
        s.completes (.fenceAcknowledge blk dt) (fun t => t.gateOpen blk = false ∧ t.fence blk = .closed ∧
          t.pwr.off = s'.pwr.off ∧ t.pwr.op = none ∧ t.gh.running = none ∧ t.gh.held.status = 0)) ∧
      (s'.drained blk = false → exec (.fenceAcknowledge blk dt) s = .next s') ∧
      (s'.pwr.opSince + 800000000 ≤ s'.now → c.op = 0x58 ∨ c.op = 0x59 →
        s.completes (.fenceTimeout blk port dt) (fun t => t.pwr.op = none ∧ t.pwr.off = s'.pwr.off ∧
          t.fence blk = s'.fence blk ∧ t.gh.running = none ∧ t.gh.held.status = 3 ∧ t.gh.held.reason = 0x30 ∧
          t.gh.held.tag = c.hdr.tag ∧ s'.logs t 0x23 blk (w32 port))) ∧
      (s'.now < s'.pwr.opSince + 800000000 → exec (.fenceTimeout blk port dt) s = .next s'))

/-- R280, R285, R286, R288, R298-R305, R309, R316, R320, R321, R342; that a synchronous reset acts whatever the clock enable is the
model's choice (log entry 56). -/
def Obligations.FabricAndPads : Prop :=
  ∀ (s : State) (r n t0 t1 m addr dt : Nat), r < 4 → n < 128 → t0 / 32 = r → t1 / 32 = r → t0 ≠ t1 → m < 32 → addr < 1024 →
    let s' := s.advance dt
    s'.live = true →
    let off := fun (u : State) (t : Nat) => u.spineBit t n = true ∧
      u.reg (aTerr t + 0x30) = satAdd (s'.reg (aTerr t + 0x30)) 1
    let answered := fun (u : State) (p : RwPkt) (k : RwKind) (reason : Byte) (data : Word) =>
      ({ pri := p.pri, kind := k, dst := p.src, src := p.dst, seq := p.seq, reason := reason, addr := p.addr,
         data := data } : RwPkt) ∈ (u.target p.src p.dst).stored
    (∀ e, (s'.user t0).live = true →
      let u := s'.fabricEdge e
      let x := s'.terr t0
      let lines := s'.linesUp t0 e
      let up := fun (c : FabClock) => s'.lineOf t0 c ∈ lines
      (lines = [] → u.user t0 = { s'.user t0 with gates := (u.user t0).gates }) ∧
      (∀ l, l < 4 →
        let g := (s'.user t0).gate l
        (s'.lineEdge t0 e l = true → s'.lineGated t0 l = false → l ∈ lines) ∧
        (s'.lineEdge t0 e l = true → s'.lineGated t0 l = true → (l ∈ lines ↔ ((u.user t0).gate l).on = true)) ∧
        (s'.lineEdge t0 e l = false → l ∉ lines ∧ (u.user t0).gate l = g) ∧
        (s'.lineEdge t0 e l = true → ∀ on, (g.due = [(2, on)] → (u.user t0).gate l = { on := g.on, due := [(1, on)] }) ∧
          (g.due = [(1, on)] → (u.user t0).gate l = { on := on, due := [] }))) ∧
      (∀ k, k < 65536 →
        let b := k / 128
        let old := (s'.user t0).ff.getLsbD k
        let q := (u.user t0).ff.getLsbD k
        let src := Config.ffSource x.comb k
        (lines = [] → q = old) ∧
        (∀ v, lines ≠ [] → x.late ≠ [] → s'.capture t0 lines (.bay b) = some v → q = v.ffNext t0 k) ∧
        (x.late ≠ [] → s'.capture t0 lines (.bay b) = none → q = old) ∧
        (x.late = [] → ¬ up (.bay b) → q = old) ∧
        (x.late = [] → up (.bay b) → x.started = true → x.holds s'.now b = true → q = old) ∧
        (x.late = [] → up (.bay b) → x.started = true → x.holds s'.now b = false →
          (s'.inputBit t0 (.reset b) = true → q = Config.ffReset x.comb k) ∧
          (s'.inputBit t0 (.reset b) = false → s'.inputBit t0 (.enable (k / 2)) = false → q = old) ∧
          (s'.inputBit t0 (.reset b) = false → s'.inputBit t0 (.enable (k / 2)) = true → q =
            (if 3 ≤ src then s'.inputBit t0 (.bypass (k / 2)) else s'.sourceBit t0 (.cell (k / 2) src))))) ∧
      (∀ k, k < 48 → x.late = [] → x.started = true → up (.slice k) → (u.user t0).slice k =
        FabricCell.sliceClock ((s'.user t0).slice k) (s'.sliceIn t0 k) (if k % 16 = 0 then 0 else ((s'.user t0).slice (k - 1)).p)) ∧
      u.regs = s'.regs ∧ u.bram = s'.bram ∧ u.log = s'.log ∧
      ({ u.terr t0 with late := x.late, waits := x.waits } : Terrace) = x ∧
      (∀ l, l ∈ (u.terr t0).late ↔ l ∈ x.late ∧ l ∉ lines) ∧ (lines = [] ∨ x.late = [] → (u.terr t0).waits = x.waits) ∧
      (∀ p, (s'.padUp p e = false ∨ (s'.pin p).next = none → u.pin p = s'.pin p) ∧
        (∀ w c, s'.padUp p e = true → (s'.pin p).next = some (w, c) →
          u.pin p = { s'.pin p with cfg := w, src := c, next := none }))) ∧
    ((s'.spineOn r n).length ≠ 1 → s'.sourceBit t0 (.spine n) = false) ∧
    (∀ w, let route := Config.spurRoute (s'.terr t0).comb w
      s'.terrLive route.source = false ∨ routeValid route t0 w = false → s'.sourceBit t0 (.spur w) = false) ∧
    (s'.spineAsks t0 n = true → s'.spineAsks t1 n = true → s'.spineBit t0 n = false → s'.spineBit t1 n = false →
      (t0, n) ∉ s'.tick.clash → (t1, n) ∉ s'.tick.clash → s.completes (.spineContention r n [t0, t1] dt) (fun u =>
        off u t0 ∧ off u t1 ∧ s'.logs u 0x37 (terraceId t0) (w32 n) ∧ u.spineDrives t0 n = false ∧ u.spineDrives t1 n = false)) ∧
    (s'.spineOn r n = [] → s'.spineAsks t1 n = false ∨ s'.spineBit t1 n = true ∨ s'.terrLive t1 = false →
      s.completes (.spineContention r n [t0, t1] dt) (fun u => ({ u with fab := s'.fab } : State) = s')) ∧
    (∀ side, let port : BramPort := { mem := m, b := side }
      let twin : BramPort := { mem := m, b := !side }
      let shows := fun (u : State) => (u.user t0).port (portNumber port)
      s'.portRuns t0 port = true → marchesBram s' t0 = false →
      let wide := Config.bramWide (s'.terr t0).config m
      (wide = false →
        (∀ got, s'.portAsks t0 port false addr [] = true → s'.bramBroken t0 m addr = false →
          got = Upset.clean ∨ got = .corrected → s.completes (.blockMemoryRead t0 port addr [got] dt) (fun u =>
          u.bram = s'.bram ∧ u.bramCodes = s'.bramCodes ∧ u.terraces = s'.terraces ∧ (shows u).q = [s'.bramWord t0 m addr] ∧
          (shows u).ce = decide (got = .corrected) ∧ (shows u).ue = false ∧
          (got = .clean → u.regs = s'.regs ∧ u.log = s'.log) ∧
          (got = .corrected → u.reg (aTerr t0 + 0x34) = satAdd (s'.reg (aTerr t0 + 0x34)) 1))) ∧
        (∀ got, s'.portAsks t0 port false addr [] = true → s'.bramBroken t0 m addr = true ∨ got = Upset.uncorrectable →
          s.completes (.blockMemoryRead t0 port addr [got] dt) (fun u =>
            (shows u).q = [u.bramWord t0 m addr] ∧ (shows u).ce = false ∧ (shows u).ue = true ∧
            (s'.bramBroken t0 m addr = true → u.bram = s'.bram ∧ u.bramCodes = s'.bramCodes) ∧
            u.bramCheck t0 m addr = s'.bramCheck t0 m addr ∧
            (∀ t k h, k < 32 → h < 1024 → t ≠ t0 ∨ k ≠ m ∨ h ≠ addr →
              u.bramWord t k h = s'.bramWord t k h ∧ u.bramCheck t k h = s'.bramCheck t k h) ∧
            u.reg (aTerr t0 + 0x38) = satAdd (s'.reg (aTerr t0 + 0x38)) 1 ∧
            s'.logs u 0x02 (terraceId t0) (w32 (m * 0x10000 + addr)))) ∧
        (s'.portAsks t0 port false addr [] = false → ∀ got, exec (.blockMemoryRead t0 port addr [got] dt) s = .next s') ∧
        (∀ w : Word64, s'.portAsks t0 port true addr [w] = false → ∀ meet,
          exec (.blockMemoryWrite t0 port addr [w] meet dt) s = .next s') ∧
        (∀ w : Word64, s'.portAsks t0 port true addr [w] = true → s'.bramBroken t0 m addr = false → s.completes (.blockMemoryWrite t0 port addr [w] .alone dt) (fun u =>
          u.bramWord t0 m addr = w ∧ u.bramCheck t0 m addr = Config.bramCode w ∧ (shows u).q = [s'.bramWord t0 m addr] ∧
          (∀ t k h, k < 32 → h < 1024 → t ≠ t0 ∨ k ≠ m ∨ h ≠ addr →
            u.bramWord t k h = s'.bramWord t k h ∧ u.bramCheck t k h = s'.bramCheck t k h) ∧
          ({ u with bram := s'.bram, bramCodes := s'.bramCodes, fab := s'.fab, tick := s'.tick } : State) = s')) ∧
        (∀ w v : Word64, s'.portAsks t0 port true addr [w] = true → s'.portAsks t0 twin true addr [v] = true →
          s'.portRuns t0 twin = true →
          s'.lineOf t0 (.bram (portNumber port)) = s'.lineOf t0 (.bram (portNumber twin)) → ∀ mine,
          s.completes (.blockMemoryWrite t0 port addr [w] (.write [v] mine) dt) (fun u =>
            u.bramWord t0 m addr = (if side then v else w) ∧
            u.reg (aTerr t0 + 0x3C) = satAdd (s'.reg (aTerr t0 + 0x3C)) 1))) ∧
      (∀ w0 w1 : Word64, wide = true → addr < 512 → s'.portAsks t0 port true addr [w0, w1] = true → s.completes (.blockMemoryWrite t0 port addr [w0, w1] .alone dt) (fun u =>
        u.bramWord t0 m (2 * addr) = w0 ∧ u.bramWord t0 m (2 * addr + 1) = w1 ∧
        (∀ t k h, k < 32 → h < 1024 → t ≠ t0 ∨ k ≠ m ∨ h / 2 ≠ addr → u.bramWord t k h = s'.bramWord t k h)))) ∧
    (∀ q rest p data, (s'.terr t0).window = q :: rest → q.reply = .packet p → p.kind = .read →
      p.reason.toNat % 64 = 0 →
      (s'.winReady t0 = true → s'.portClocked t0 5 = true → s'.winAnswers t0 true data = true →
        s.completes (.windowAnswer t0 true data dt) (fun u => answered u p .rdata 0 data ∧
        (u.terr t0).window = rest ∧ u.regs = s'.regs)) ∧
      (s'.winReady t0 = true → s'.portClocked t0 5 = true → s'.winAnswers t0 false data = true →
        s.completes (.windowAnswer t0 false data dt) (fun u => answered u p .err 0x08 0 ∧
        (u.terr t0).window = rest ∧ u.regs = s'.regs)) ∧
      (s'.rf (aTerr t0 + 0x40) 15 0 * 16000 ≤ s'.now - (s'.terr t0).windowSince →
        s.completes (.windowTimeout t0 dt) (fun u => answered u p .err 0x30 0 ∧ (u.terr t0).window = rest ∧
          u.reg (aTerr t0 + 0x44) = satAdd (s'.reg (aTerr t0 + 0x44)) 1)) ∧
      (s'.now - (s'.terr t0).windowSince < s'.rf (aTerr t0 + 0x40) 15 0 * 16000 →
        exec (.windowTimeout t0 dt) s = .next s')) ∧
    (∀ q rest data c, s'.winReady t0 = true → s'.portClocked t0 5 = true → s'.winAnswers t0 true data = true →
      (s'.terr t0).window = q :: rest → q.reply = .host .one → q.write = false →
      s'.gh.running = some c → c.begun = true → c.op = 0x10 →
      s.completes (.windowAnswer t0 true data dt) (fun u => u.gh.running = none ∧ u.gh.held.status = 0 ∧
        u.gh.held.data = [data] ∧ u.gh.held.tag = c.hdr.tag ∧ (u.terr t0).window = rest)) ∧
    (∀ ack data, s'.winReady t0 = false ∨ s'.portClocked t0 5 = false ∨ s'.winAnswers t0 ack data = false →
      exec (.windowAnswer t0 ack data dt) s = .next s') ∧
    (∀ l, l < 4 →
      (s'.terrUp t0 = true → s'.lineGated t0 l = true →
        ((s'.user t0).gate l).due = [] → ∀ on, s'.inputBit t0 (.lineEnable l) = on → s.completes (.clockLineEnable t0 l on dt) (fun u =>
          (u.user t0).gate l = { (s'.user t0).gate l with due := if on = ((s'.user t0).gate l).on then [] else [(2, on)] } ∧
          (∀ k, k < 4 → k ≠ l → (u.user t0).gate k = (s'.user t0).gate k) ∧ (∀ k, k < 4 → u.lineRuns t0 k = s'.lineRuns t0 k) ∧
          { u.user t0 with gates := (s'.user t0).gates } = s'.user t0 ∧ { u with fab := s'.fab } = s')) ∧
      (∀ on, s'.terrUp t0 = false ∨ s'.lineGated t0 l = false ∨ s'.inputBit t0 (.lineEnable l) ≠ on → exec (.clockLineEnable t0 l on dt) s = .next s')) ∧
    s.completes (.repairHoldEnd t0 dt) (fun u =>
      u.terr t0 = { s'.terr t0 with heldBay := none } ∧ ({ u with terraces := s'.terraces, tick := s'.tick } : State) = s' ∧
      ∀ b, (u.terr t0).holds u.now b = true ↔ ∃ f, f ∈ (s'.terr t0).lost ∧ f.bay = b) ∧
    (∀ p, p < 416 →
      let slips := s'.inputBit (pinTerr (s'.pin p).cfg) (.slip p)
      ((s'.pin p).configured = true → slips = true → s.completes (.deserialiserSlip p dt) (fun u =>
        u.pin p = { s'.pin p with slips := (s'.pin p).slips + 1 } ∧
        ({ u with pins := s'.pins, tick := s'.tick } : State) = s' ∧ ∀ k, k ≠ p → u.pin k = s'.pin k)) ∧
      ((s'.pin p).configured = false ∨ slips = false → exec (.deserialiserSlip p dt) s = .next s')) ∧
    (∀ b meas, b < 13 → meas < 6 →
      let x := s'.bank b
      let rose := fun (meas : Nat) => if x.meas = 0 ∧ meas ≠ 0 then s'.now else x.rose
      (x.decl ≠ 0 → s.completes (.vioOutOfWindow b meas dt) (fun u =>
        u.bank b = { x with meas := meas, rose := rose meas, ok := false, held := true, outAt := s'.now } ∧ bit (u.reg (aBank b)) 30 = true ∧
        s'.logs u 0x32 (bankId b) (w32 b) ∧
        (u.jtagActs = false → ∀ p, p / 32 = b → u.pinDrive p = none ∧
          (meas ≠ 0 → Config.ballDrive p u.now = none → u.pinLevel p = false)))) ∧
      (x.decl = 0 → s.completes (.vioOutOfWindow b meas dt) (fun u => u.bank b = { x with meas := meas, rose := rose meas } ∧
        u.regs = s'.regs)) ∧
      let free := if x.outAt + 10 ^ 10 ≤ s'.now then s'.now else s'.now + 10 ^ 10
      (x.decl ≠ 0 → x.decl < 6 → x.ok = false → s.completes (.vioRecovery b x.decl dt) (fun u =>
        u.bank b = { x with meas := x.decl, rose := rose x.decl, ok := true, until_ := free } ∧ u.regs = s'.regs ∧
        (x.outAt + 10 ^ 10 ≤ s'.now → s'.rb (aBank b) 30 = false → u.bankHeld b = false) ∧
        (x.held = true → s'.now < x.outAt + 10 ^ 10 ∨ s'.rb (aBank b) 30 = true → u.bankHeld b = true))) ∧
      (x.decl ≠ meas → s.completes (.vioRecovery b meas dt) (fun u => (u.bank b).ok = false ∧ (u.bank b).meas = meas ∧
        u.regs = s'.regs)))

/-- R324-R335, R456. -/
def Obligations.Clocks : Prop :=
  ∀ (s : State) (who : Accessor) (x p dt : Nat) (value : Word), Accessor.ok who = true → x < 2 → p < 16 →
    let s' := s.advance dt
    let lost := fun (u : State) => u.xStable x = false ∧ bit (u.reg 0x20018) x = true ∧ s'.logs u 0x30 0x0002 (w32 x) ∧
      u.clk.diff = none ∧
      ((s'.pll p).running = true → s'.pllOn p = x →
        (s'.pllOther p ≠ x → s'.refStable (s'.pllOther p) = true →
          u.pll p = { s'.pll p with onAlt := !(s'.pll p).onAlt } ∧ bit (u.reg 0x20018) 2 = true) ∧
        (s'.refStable (s'.pllOther p) = false →
          u.pll p = { s'.pll p with frozen := true } ∧ bit (u.reg 0x20018) 3 = true)) ∧
      ((s'.pll p).running = false ∨ s'.pllOn p ≠ x → u.pll p = s'.pll p)
    (s.mayAccess who true (aX x) = true →
      let v := value ||| 0x80000000
      let c := State.xtalCheck x v
      (s.xEn x = false → c.1 = 0 → s.completes (.crystalInputEnable who x value) (fun u =>
        u.reg (aX x) = (s.reg (aX x) &&& 0x0FF00000) ||| (v &&& 0xF00FFFFF) ∧ u.xtal x = {} ∧
        bit (u.reg 0x20004) 30 = true ∧ ({ u with regs := s.regs, clk := s.clk, tick := s.tick } : State) = s)) ∧
      (s.xEn x = false → c.1 ≠ 0 → s.completes (.crystalInputEnable who x value) (fun u =>
        s.onlyRegs u [0x20004] ∧ fld (u.reg 0x20004) 23 16 = c.1.toNat)) ∧
      (s.xEn x = true →
        ((s.pll p).running = true → s.pllRef p = x ∨ s.pllAlt p = x →
          exec (.crystalInputDisable who x value) s = .next s) ∧
        ((∀ k, k < 16 → (s.pll k).running = true → s.pllRef k ≠ x ∧ s.pllAlt k ≠ x) →
          s.completes (.crystalInputDisable who x value) (fun u => u.xEn x = false ∧ u.xtal x = {} ∧
            u.clk.diff = none ∧ u.clk.plls = s.clk.plls)))) ∧
    (s'.live = true → s'.xEn x = true →
      let c := s'.xtal x
      (c.stable = true → ∀ count,
        let off := (if 8 * count < c.sum8 then c.sum8 - 8 * count else 8 * count - c.sum8) * 1000000
        (off ≤ s'.ckPpm * c.sum8 → exec (.crystalWindowEnd x count dt) s = .next s') ∧
        (s'.ckPpm * c.sum8 < off → s.completes (.crystalWindowEnd x count dt) lost)) ∧
      (c.stable = true → s.completes (.edgeLoss x dt) (fun u => lost u ∧ (u.xtal x).spoilt = true)) ∧
      (c.stable = false → exec (.edgeLoss x dt) s = .next s') ∧
      (c.stable = false → c.spoilt = true → ∀ count, s.completes (.crystalWindowEnd x count dt) (fun u =>
        u.xtal x = { c with spoilt := false } ∧ u.regs = s'.regs)) ∧
      (c.stable = false → c.spoilt = false → ∀ count, c.counts.length = 7 →
        (s'.windowsAgree x (c.counts ++ [count]) = true → s.completes (.crystalWindowEnd x count dt) (fun u =>
          u.xStable x = true ∧ (u.xtal x).sum8 = (c.counts ++ [count]).foldl (· + ·) 0 ∧ u.regs = s'.regs)) ∧
        (s'.windowsAgree x (c.counts ++ [count]) = false → s.completes (.crystalWindowEnd x count dt) (fun u =>
          u.xStable x = false ∧ (u.xtal x).counts = c.counts ++ [count] ∧ u.regs = s'.regs)))) ∧
    (s'.live = true → s'.xEn x = false → ∀ count, exec (.crystalWindowEnd x count dt) s = .next s') ∧
    (s'.live = true → (s'.pll p).frozen = true →
      (s'.refStable (s'.pllOn p) = true → s.completes (.frozenClear p dt) (fun u =>
        u.pll p = { s'.pll p with frozen := false } ∧ u.regs = s'.regs)) ∧
      (s'.refStable (s'.pllOn p) = false → exec (.frozenClear p dt) s = .next s')) ∧
    (s'.live = true → ∀ edges,
      (s'.xStable 0 = true → s'.xStable 1 = true → s.completes (.xabDiffWindowEnd edges dt) (fun u =>
        ({ u with clk := { u.clk with diff := s'.clk.diff } } : State) = s' ∧ u.clk.diff = some (Config.roundQuot
          ((((edges * s'.xFreq 0 : Nat) : Int) - ((2 ^ 28 * s'.xFreq 1 : Nat) : Int)) * 1000000000)
          (2 ^ 28 * s'.xFreq 1)))) ∧
      (s'.xStable 0 = false ∨ s'.xStable 1 = false → exec (.xabDiffWindowEnd edges dt) s = .next s')) ∧
    (p ≠ 15 → s.mayAccess who true (aPll p) = true →
      let v := value ||| 1
      let c := s.pllCheck p v
      (bit (s.reg (aPll p)) 0 = false → c.1 = 0 → s.completes (.pllEnable who p value) (fun u =>
        (u.pll p).running = true ∧ (u.pll p).lock = false ∧ (u.pll p).frozen = false ∧ (u.pll p).onAlt = false ∧
        (u.pll p).losses = (s.pll p).losses ∧ u.pllSpread p = s.reg (aPll p + 0x14) ∧
        bit (u.reg (aPll p)) 0 = true ∧ fld (u.reg (aPll p)) 5 2 = fld value 5 2 ∧ bit (u.reg (aPll p + 4)) 30 = true)) ∧
      (bit (s.reg (aPll p)) 0 = false → c.1 ≠ 0 → s.completes (.pllEnable who p value) (fun u =>
        s.onlyRegs u [aPll p + 4] ∧ fld (u.reg (aPll p + 4)) 23 16 = c.1.toNat)) ∧
      (bit (s.reg (aPll p)) 0 = true → s.pllUsed p = true → exec (.pllDisable who p value) s = .next s) ∧
      (bit (s.reg (aPll p)) 0 = true → s.pllUsed p = false → s.completes (.pllDisable who p value) (fun u =>
        (u.pll p).running = false ∧ (u.pll p).lock = false ∧ bit (u.reg (aPll p)) 0 = false ∧
        (u.pll p).losses = (s.pll p).losses))) ∧
    (s.mayAccess who true (aPll p + 0x14) = true → s.completes (.sscUpdate who p value) (fun u =>
      s.onlyRegs { u with clk := s.clk } [aPll p + 0x14] ∧ (u.reg (aPll p + 0x14) =
        if p < 8 ∨ p = 14 then (s.reg (aPll p + 0x14) &&& 0xFFFFFFC0) ||| (value &&& 0x3F) else s.reg (aPll p + 0x14)) ∧
      ((s.pll p).running = false → u.clk = s.clk) ∧ (∀ k, k ≠ p → u.pll k = s.pll k) ∧
      ((s.pll p).running = true → (u.pll p).ssc = s.pllSpread p ∧ s.now ≤ (u.pll p).sscAt ∧
        (u.pll p).sscAt ≤ s.now + 33400000 ∧ (u.pll p).lock = (s.pll p).lock ∧ (u.pll p).onAlt = (s.pll p).onAlt))) ∧
    (s'.live = true →
      ((s'.pll p).running = true → s.completes (.pllLock p dt) (fun u => u.pll p = { s'.pll p with lock := true } ∧
        u.regs = s'.regs ∧ (p = 15 → u.tb.watched = true ∧ u.mon.adcOn = true))) ∧
      ((s'.pll p).running = false → exec (.pllLock p dt) s = .next s') ∧
      ((s'.pll p).lock = true → s.completes (.pllUnlock p dt) (fun u =>
        u.pll p = { s'.pll p with lock := false, losses := min 0xFFFF ((s'.pll p).losses + 1) } ∧
        bit (u.reg 0x20018) 4 = true ∧ s'.logs u 0x31 0x0002 (w32 p))) ∧
      ((s'.pll p).lock = false → exec (.pllUnlock p dt) s = .next s') ∧
      (s'.clk.startDue = none → exec (.systemPllStart dt) s = .next s') ∧
      (∀ due, s'.clk.startDue = some (x, due) → s'.clk.spllStarted = false →
        let ready := s'.xStable x = true ∧ (s'.xtal x).stableAt ≤ due
        (ready → s.completes (.systemPllStart dt) (fun u => (u.pll 15).running = true ∧
          u.pllRef 15 = x ∧ bit (u.reg (aPll 15)) 0 = true ∧ u.clk.spllStarted = true ∧ u.clk.startDue = none)) ∧
        (¬ ready → s'.now < due → exec (.systemPllStart dt) s = .next s') ∧
        (¬ ready → due ≤ s'.now → s.completes (.systemPllStart dt) (fun u => u.clk.startDue = none ∧
          u.clk.spllStarted = false ∧ s'.logs u 0x4A 0x0002 1))))

/-- R402, R407-R414, R417, R418. -/
def Obligations.DramChannels : Prop :=
  ∀ (s : State) (who : Accessor) (d dt : Nat) (value : Word), Accessor.ok who = true → d < 16 →
    let s' := s.advance dt
    let a := aDram d
    let x := s.dr d
    let y := s'.dr d
    (s.mayAccess who true a = true →
      let c := s.drCheck d
      (s.drEn d = false → c.1 = 0 → s.completes (.dramChannelEnable who d value) (fun u =>
        u.reg a = (value ||| 1) &&& 7 ∧ bit (u.reg (a + 4)) 30 = true ∧ u.dr d = { ({} : Dram) with powered := true } ∧
        (∀ e, e ≠ d → u.dr e = s.dr e))) ∧
      (s.drEn d = false → c.1 ≠ 0 → s.completes (.dramChannelEnable who d value) (fun u =>
        s.onlyRegs u [a + 4] ∧ fld (u.reg (a + 4)) 23 16 = c.1.toNat)) ∧
      (s.drEn d = true → s.drSpill d = true → exec (.dramChannelDisable who d value) s = .next s) ∧
      (s.drEn d = true → s.drSpill d = false → s.completes (.dramChannelDisable who d value) (fun u =>
        u.drEn d = false ∧ u.dr d = {} ∧ u.reg (a + 0x20) = 0 ∧ u.reg (a + 0x24) = 0 ∧ u.reg (a + 0x28) = 0 ∧
        u.reg (a + 0x2C) = 0 ∧ (∀ e, e ≠ d → u.dr e = s.dr e)))) ∧
    (s'.live = true →
      (y.powered = true → s.completes (.initDone d dt) (fun u => u.dr d = { y with initDone := true, refFrom := s'.now, refreshed := [] } ∧ u.regs = s'.regs)) ∧
      (y.powered = false → exec (.initDone d dt) s = .next s')) ∧
    (s.mayAccess who true (a + 0x40) = true →
      (s.drMode = true → s.drSpill d = false → x.training = false → x.initDone = true →
        s.completes (.trainingStart who d) (fun u => u.dr d = { x with trained := false, training := true } ∧
          bit (u.reg (a + 0x50)) 31 = false ∧
          (d % 8 ≠ 0 → (s.dr (d / 8 * 8)).trained = true → ∀ k, k < 16 →
            u.reg (a + 0x200 + 4 * k) = s.reg (aDram (d / 8 * 8) + 0x200 + 4 * k)))) ∧
      (s.drMode = false ∨ s.drSpill d = true ∨ x.training = true ∨ x.initDone = false →
        exec (.trainingStart who d) s = .next s)) ∧
    (∀ fail rdEye wrEye delays, s'.live = true → y.training = true →
      (fail = 0 → delays.length = 33 → s.completes (.trainingEnd d fail rdEye wrEye delays dt) (fun u =>
        (u.dr d).trained = true ∧ (u.dr d).training = false ∧ (u.dr d).lines = [] ∧ (u.dr d).retired = y.retired ∧
        bit (u.reg (a + 0x50)) 31 = true ∧ bit (u.reg (a + 0x50)) 30 = false ∧ u.reg (a + 0x58) = w32 rdEye ∧
        u.reg (a + 0x5C) = w32 wrEye ∧ (∀ k, k < 16 → u.reg (a + 0x200 + 4 * k) = w32 (delays.getD k 0) &&& 0x7F ∧
          u.reg (a + 0x240 + 4 * k) = w32 (delays.getD (16 + k) 0) &&& 0x7F))) ∧
      (fail ≠ 0 → s.completes (.trainingEnd d fail rdEye wrEye delays dt) (fun u =>
        (u.dr d).training = false ∧ (u.dr d).trained = y.trained ∧ bit (u.reg (a + 0x50)) 31 = true ∧
        bit (u.reg (a + 0x50)) 30 = true ∧ u.reg (a + 0x54) = w32 fail ∧ s'.logs u 0x35 (dramId d) (w32 fail)))) ∧
    (s'.live = true → y.training = false → ∀ fail rdEye wrEye delays,
      exec (.trainingEnd d fail rdEye wrEye delays dt) s = .next s') ∧
    (∀ errs : List Word, s.mayAccess who true (a + 0x140) = true →
      let ok := s.drMode = true ∧ fld value 2 1 ≠ 3 ∧ fld value 31 16 ≠ 0 ∧ x.initDone = true ∧ x.training = false
      (ok → s.completes (.compareRun who d value errs) (fun u => u.reg (a + 0x140) = value &&& 0xFFFF000E ∧
        bit (u.reg (a + 0x144)) 31 = true ∧ bit (u.reg (a + 0x144)) 30 = false ∧
        fld (u.reg (a + 0x144)) 15 0 = (fld (s.reg (a + 0x144)) 15 0 + 1) % 65536 ∧
        (∀ k, k < 16 → u.reg (a + 0x148 + 4 * k) = errs.getD k 0) ∧ ({ u with regs := s.regs, tick := s.tick } : State) = s)) ∧
      (¬ ok → exec (.compareRun who d value errs) s = .next s)) ∧
    (s.mayAccess who true (a + 0x404) = true →
      let l := s.drWinLine d
      (x.trained = true → 64 * l < s.drBytes d →
        s.completes (.drWinRead who d .clean) (fun u => ({ u with regs := s.regs, tick := s.tick } : State) = s ∧
          bit (u.reg (a + 0x480)) 31 = true ∧ bit (u.reg (a + 0x480)) 30 = false ∧
          ∀ k, k < 18 → u.reg (a + 0x484 + 4 * k) = (toWords (s.drLine d l).data ++ [(s.drLine d l).check, (s.drLine d l).tag]).getD k 0) ∧
        s.completes (.drWinRead who d .uncorrectable) (fun u => bit (u.reg (a + 0x480)) 31 = true ∧
          bit (u.reg (a + 0x480)) 30 = true ∧ u.mode = s.mode ∧ u.dram = s.dram) ∧
        s.completes (.drWinRead who d .forged) (fun u => bit (u.reg (a + 0x480)) 31 = true ∧
          bit (u.reg (a + 0x480)) 30 = false ∧ u.mode = s.mode ∧ u.dram = s.dram)) ∧
      (x.trained = true → 64 * l < s.drBytes d → s.drSpill d = false → s.completes (.drWinWrite who d) (fun u =>
        u.regs = s.regs ∧ u.drLine d l = plainLine d l ((List.range 16).flatMap (fun k => wordBytes (s.reg (a + 0x440 + 4 * k)))) ∧
        ∀ e m, e ≠ d ∨ m ≠ l → u.drLine e m = s.drLine e m)) ∧
      (x.trained = false → (∀ got, exec (.drWinRead who d got) s = .next s) ∧ exec (.drWinWrite who d) s = .next s) ∧
      (s.drSpill d = true → exec (.drWinWrite who d) s = .next s)) ∧
    (∀ bank, bank < 16 → s'.live = true →
      let owed := s'.refreshOwed d bank
      let served := fun (u : State) => Table.get (fun _ => 0) (u.dr d).refreshed bank = Table.get (fun _ => 0) y.refreshed bank + 1 ∧
        (∀ b, b ≠ bank → Table.get (fun _ => 0) (u.dr d).refreshed b = Table.get (fun _ => 0) y.refreshed b)
      (s'.drWorks d = true → 8 ≤ owed → s.completes (.refresh d bank true dt) (fun u => served u ∧
        s'.onlyRegs { u with dram := s'.dram } [a + 0x2C] ∧ u.reg (a + 0x2C) = satAdd (s'.reg (a + 0x2C)) 1)) ∧
      (s'.drWorks d = true → 1 ≤ owed → owed < 8 → s.completes (.refresh d bank false dt) (fun u => served u ∧
        ({ u with dram := s'.dram } : State) = s')) ∧
      (∀ late, s'.drWorks d = false ∨ owed = 0 ∨ late ≠ decide (8 ≤ owed) →
        exec (.refresh d bank late dt) s = .next s')) ∧
    (∀ t, y.tempDue = some t → s'.now < t → s'.live = true → ∀ t0 t1 hot, exec (.temperatureRead d t0 t1 hot dt) s = .next s') ∧
    (∀ t0 t1, t0 < 8 → t1 < 8 → s'.live = true → s'.drWorks d = true → (∀ t, y.tempDue = some t → t ≤ s'.now) →
      (y.hot = false → s.completes (.temperatureRead d t0 t1 true dt) (fun u => (u.dr d).hot = true ∧
        u.reg (a + 0x10) = w32 (t0 + t1 * 256) ∧ s'.logs u 0x33 (dramId d) (w32 (t0 + t1 * 256)))) ∧
      (y.hot = true → y.coolReads = 0 → s.completes (.temperatureRead d t0 t1 false dt) (fun u => (u.dr d).hot = true ∧
        (u.dr d).coolReads = 1)) ∧
      (y.hot = true → 1 ≤ y.coolReads → s.completes (.temperatureRead d t0 t1 false dt) (fun u => (u.dr d).hot = false ∧
        u.reg (a + 0x10) = w32 (t0 + t1 * 256)))) ∧
    (∀ drift : Int, s'.live = true →
      (∀ t, y.trackDue = some t → s'.now < t → exec (.oscillatorTracking d drift dt) s = .next s') ∧
      (s'.drWorks d = true → s'.rb a 2 = true → (∀ t, y.trackDue = some t → t ≤ s'.now) → s.completes (.oscillatorTracking d drift dt) (fun u =>
        (u.dr d).drift = y.drift + drift ∧
        (∀ k, k < 16 → 0 ≤ ((s'.reg (a + 0x200 + 4 * k)).toNat : Int) + drift →
          ((s'.reg (a + 0x200 + 4 * k)).toNat : Int) + drift < 128 →
          ((u.reg (a + 0x200 + 4 * k)).toNat : Int) = (s'.reg (a + 0x200 + 4 * k)).toNat + drift) ∧
        (8 < (y.drift + drift).natAbs → s'.logs u 0x34 (dramId d) (BitVec.ofInt 32 (y.drift + drift))))) ∧
      (s'.rb a 2 = false → exec (.oscillatorTracking d drift dt) s = .next s')) ∧
    (∀ line, s'.live = true →
      (s'.drWorks d = true → y.trained = true → s'.rb a 1 = true → 64 * line < s'.drBytes d →
        s'.drRetired d (line / 64) = false → (∀ e, e ∈ y.patrolled → e.1 = line → e.2 + 43200 * 10 ^ 12 ≤ s'.now) →
        let seen := fun (u : State) => (line, s'.now) ∈ (u.dr d).patrolled ∧ (u.dr d).lines = y.lines
        s.completes (.dramPatrolRead d line .clean dt) (fun u => seen u ∧ ({ u with dram := s'.dram } : State) = s') ∧
        s.completes (.dramPatrolRead d line .corrected dt) (fun u => seen u ∧
          u.reg (a + 0x20) = satAdd (s'.reg (a + 0x20)) 1 ∧ u.mode = s'.mode) ∧
        s.completes (.dramPatrolRead d line .uncorrectable dt) (fun u => u.reg (a + 0x24) = satAdd (s'.reg (a + 0x24)) 1 ∧
          seen u ∧ bit (u.reg (a + 8)) 26 = true ∧ u.mode = s'.mode ∧ s'.logs u 0x02 (dramId d) (w32 (64 * line)))) ∧
      (s'.drRetired d (line / 64) = true ∨ (∃ t, (line, t) ∈ y.patrolled ∧ s'.now < t + 43200 * 10 ^ 12) → ∀ got, exec (.dramPatrolRead d line got dt) s = .next s'))

/-- R419-R423, R434, R510-R514. AES, key wrap and HMAC are the model's reading of the standards the manual names
(log entry 7). -/
def Obligations.KeysAndAuth : Prop :=
  (∀ (s : State) (h : Hdr) (index level : Word) (wrapped mac : List Word),
    let k := index.toNat
    let n := level.toNat
    (s.runs 0x70 h (index :: wrapped) = true →
      let key := Crypto.unwrap (Crypto.ofBytes Config.transportKey) (Crypto.ofBytes (wrapped.flatMap wordBytes))
      (k < 64 → s.keyInUse k = false → ∀ b, key = some b →
        let v := w32 (Crypto.keyCheck b)
        s.replies (.keyLoad h index wrapped) 0x70 h 0 0 [v] (fun t =>
          t.keySlot k = { key := Crypto.toBytes b, kcv := v } ∧ (∀ j, j ≠ k → t.keySlot j = s.keySlot j) ∧
          t.reg 0x700020 = satAdd (s.reg 0x700020) 1 ∧
          (∀ p, t.weakAt p = if p = .keySlot k then .clean else s.weakAt p) ∧
          ({ t with gh := s.gh, keys := s.keys, regs := s.regs, tick := s.tick, weak := s.weak } : State) = s)) ∧
      (63 < k ∨ key = none → s.replies (.keyLoad h index wrapped) 0x70 h 2 2 [] (fun t => s.onlyGatehouse t)) ∧
      (k < 64 → key ≠ none → s.keyInUse k = true →
        s.replies (.keyLoad h index wrapped) 0x70 h 2 0x30 [] (fun t => s.onlyGatehouse t))) ∧
    (s.runs 0x71 h [index] = true →
      (k < 64 → s.keyInUse k = false → s.replies (.keyZero h index) 0x71 h 0 0 [] (fun t => t.keySlot k = {} ∧
        (∀ j, j ≠ k → t.keySlot j = s.keySlot j) ∧ (∀ p, t.weakAt p = if p = .keySlot k then .clean else s.weakAt p) ∧
        ({ t with gh := s.gh, keys := s.keys, tick := s.tick, weak := s.weak } : State) = s)) ∧
      (k < 64 → s.keyInUse k = true → s.replies (.keyZero h index) 0x71 h 2 0x30 [] (fun t => s.onlyGatehouse t)) ∧
      (63 < k → k ≠ 0xFFFFFFFF → s.replies (.keyZero h index) 0x71 h 2 2 [] (fun t => s.onlyGatehouse t))) ∧
    (s.runs 0x71 h [0xFFFFFFFF] = true →
      (s.anyKeyInUse = false → s.replies (.keyZeroAll h) 0x71 h 0 0 [] (fun t => t.keys = [] ∧
        (∀ j, t.weakAt (.keySlot j) = .clean) ∧
        ({ t with gh := s.gh, keys := s.keys, tick := s.tick, weak := s.weak } : State) = s)) ∧
      (s.anyKeyInUse = true → s.mode ≠ .stop → s.stopPend = false → s.completes (.keyZeroAll h) (fun t => t.keys = [] ∧
        t.stopPend = true ∧ t.mode = s.mode ∧ (∀ n, (t.advance (n + 1)).mode = .stop) ∧ t.reg 0x700200 = 0x83FF0006 ∧
        t.gh.running = none ∧ t.gh.held.status = 0 ∧ t.gh.held.tag = h.tag))) ∧
    (s.runs 0x78 h [0, level] = true →
      let out := match s.gh.lockoutEnd with | some e => e ≤ s.now | none => True
      (out → n < 1 ∨ 3 < n ∨ n ≤ s.gh.auth →
        s.replies (.debugAuthChallenge h level) 0x78 h 2 2 [] (fun t => s.onlyGatehouse t)) ∧
      (¬ out →
        s.replies (.debugAuthChallenge h level) 0x78 h 2 0x30 [] (fun t => s.onlyGatehouse t)) ∧
      (1 ≤ n → n ≤ 3 → s.gh.auth < n → out →
        let c := s.gh.challengeCount + 1
        let data := [level] ++ (List.range 8).map (Config.randomWord c) ++ [Config.serialLo, Config.serialHi, w32 c]
        s.replies (.debugAuthChallenge h level) 0x78 h 0 0 data (fun t => s.onlyGatehouse t ∧
          t.gh.challenge = some { level := n, data := data, closesAt := s.now + 10 ^ 13 } ∧ t.gh.auth = s.gh.auth))) ∧
    (s.runs 0x78 h (1 :: mac) = true →
      (s.gh.challenge = none → s.replies (.debugAuthResponse h mac) 0x78 h 2 2 [] (fun t => s.onlyGatehouse t)) ∧
      (∀ c, s.gh.challenge = some c → s.now < c.closesAt →
        let want := Crypto.hmac384 (Crypto.ofBytes (Config.debugKey c.level)) (Crypto.ofBytes (c.data.flatMap wordBytes))
        (Crypto.ofBytes (mac.flatMap wordBytes) = want → s.gh.auth < c.level →
          s.replies (.debugAuthResponse h mac) 0x78 h 0 0 [] (fun t => t.gh.auth = c.level ∧ t.gh.challenge = none ∧
            (s.gh.auth ≠ 3 → s.onlyGatehouse t))) ∧
        (Crypto.ofBytes (mac.flatMap wordBytes) ≠ want →
          s.replies (.debugAuthResponse h mac) 0x78 h 2 6 [] (fun t => s.onlyGatehouse t ∧ t.gh.auth = s.gh.auth ∧
            t.gh.challenge = none ∧ t.gh.lockoutEnd = some (s.now + 10 ^ 12))))) ∧
    (s.runs 0x78 h [2, level] = true →
      (s.gh.auth < n → s.replies (.debugAuthLower h level) 0x78 h 2 2 [] (fun t => s.onlyGatehouse t)) ∧
      (n ≤ s.gh.auth → s.gh.auth ≠ 3 ∨ n = 3 → s.replies (.debugAuthLower h level) 0x78 h 0 0 [] (fun t =>
        t.gh.auth = n ∧ s.onlyGatehouse t ∧ (n = 0 → s.gh.auth ≠ 0 → t.gh.challenge = none))) ∧
      (n < 3 → s.gh.auth = 3 → s.replies (.debugAuthLower h level) 0x78 h 0 0 [] (fun t =>
        t.gh.auth = n ∧ t.reg 0xE80100 = 0 ∧ t.reg 0xE80104 = 0 ∧ t.reg 0xE80060 = 0 ∧
        ∀ e, e < 64 → (t.eng e).dbg.bkpt = [] ∧ (t.eng e).dbg.watch = [])))) ∧
  (∀ (s : State) (k dt : Nat), k < 64 →
    let s' := s.advance dt
    s'.live = true →
    (s'.keyInUse k = true → s'.stopPend = false → s.completes (.keySlotUncorrectable k dt) (fun t =>
      t.stopPend = true ∧ t.mode = s'.mode ∧ t.reg 0x700200 = BitVec.ofNat 32 (0x84000006 + k * 65536) ∧
      ∀ n, (t.advance (n + 1)).mode = .stop ∧ (t.advance (n + 1)).keys = [])) ∧
    (s'.keyInUse k = false → s.completes (.keySlotUncorrectable k dt) (fun t => t.keySlot k = {} ∧ t.mode = s'.mode ∧
      (∀ j, j ≠ k → t.keySlot j = s'.keySlot j) ∧ s'.logs t 0x51 0x0006 (w32 k))) ∧
    (∀ c, s'.gh.challenge = some c →
      (c.closesAt ≤ s'.now → s.completes (.challengeExpiry dt) (fun t => s'.onlyGatehouse t ∧ t.gh.challenge = none ∧
        t.gh.auth = s'.gh.auth)) ∧
      (s'.now < c.closesAt → exec (.challengeExpiry dt) s = .next s')) ∧
    (∀ e, s'.gh.lockoutEnd = some e →
      (e ≤ s'.now → s.completes (.lockoutEnd dt) (fun t => s'.onlyGatehouse t ∧ t.gh.lockoutEnd = none)) ∧
      (s'.now < e → exec (.lockoutEnd dt) s = .next s')))

/-- R450-R462, R557. A refused commit leaves the load open by the model's choice (log entry 25); one step carries a whole
flash boot by the model's choice (log entry 26). -/
def Obligations.BootAndImages : Prop :=
  (∀ (s : State) (h : Hdr) (kind ovl len src flash offset : Word) (words : List Word),
    let n := len.toNat
    let o := ovl.toNat
    let limit := if kind = 0 then 201326592 else 4194304
    let inRange := kind.toNat ≤ 1 ∧ (kind = 0 → o = 0) ∧ (kind = 1 → 1 ≤ o ∧ o ≤ 8) ∧ n % 4 = 0 ∧ 512 ≤ n ∧
      n ≤ limit + 512 ∧ src.toNat ≤ 1 ∧ flash.toNat % 4 = 0
    let reading := match s.boot.load with | some l => l.reading = true | none => False
    let busy := s.boot.booting = true ∨ reading ∨
      (kind = 1 ∧ s.ovl.id = o ∧ (s.ovl.busy = true ∨ s.ovl.ready = true ∨ s.ovl.bound = true))
    (s.runs 0x20 h [kind, ovl, len, src, flash] = true →
      (¬ inRange → s.replies (.imageBegin h kind ovl len src flash) 0x20 h 2 2 [] (fun t => s.onlyGatehouse t)) ∧
      (inRange → busy → s.replies (.imageBegin h kind ovl len src flash) 0x20 h 2 0x30 [] (fun t => s.onlyGatehouse t)) ∧
      (inRange → ¬ busy → s.replies (.imageBegin h kind ovl len src flash) 0x20 h 0 0 [] (fun t =>
        t.boot.load = some { kind := kind.toNat, ovl := o, len := n, flash := decide (src = 1), addr := flash, bytes := [],
                             reading := decide (src = 1) } ∧
        (kind = 0 → t.boot.base = none ∧ t.bram = [] ∧ (∀ k, (t.terr k).configured = false ∧ (t.terr k).started = false ∧
            (t.terr k).config = [] ∧ (t.terr k).arrived = [] ∧ (t.terr k).bramSec = [] ∧
            (t.terr k).heldBay = (s.terr k).heldBay ∧ (t.terr k).lost = (s.terr k).lost ∧ t.pin k = {}) ∧
          (∀ b, b < 13 → (t.bank b).decl = 0 ∧ (t.bank b).ok = false ∧ (t.bank b).meas = (s.bank b).meas) ∧ t.mode = s.mode ∧
          t.boot.slots = s.boot.slots) ∧
        (kind = 1 → t.slot o = none ∧ (∀ k, k ≠ o → t.slot k = s.slot k) ∧ t.terraces = s.terraces ∧
          t.boot.base = s.boot.base)))) ∧
    (s.runs 0x21 h (offset :: words) = true →
      (∀ l, s.boot.load = some l → l.flash = false → offset.toNat = l.bytes.length →
        l.bytes.length + 4 * words.length ≤ l.len →
        s.replies (.imageData h offset words) 0x21 h 0 0 [] (fun t =>
          t.boot.load = some { l with bytes := l.bytes ++ words.flatMap wordBytes } ∧
          (l.kind ≠ 0 → ({ t with gh := s.gh, boot := { t.boot with load := s.boot.load } } : State) = s) ∧
          -- the TERRACE section of a base image that these bytes complete is written (DESIGN CHOICE, log entry 88)
          (l.kind = 0 → ∀ k d, k < 128 → s.domainOn (terraceId k) = true →
            State.sectionsOf l.len (l.bytes ++ words.flatMap wordBytes) =
              State.sectionsOf l.len l.bytes ++ [({ type := 1, target := k, data := d } : Section)] →
            (t.terr k).arrived = d ∧ (t.terr k).configured = (s.terr k).configured ∧ (t.terr k).config = (s.terr k).config))) ∧
      ((match s.boot.load with
          | none => True
          | some l => l.flash = true ∨ offset.toNat ≠ l.bytes.length ∨ l.len < l.bytes.length + 4 * words.length) →
        s.replies (.imageData h offset words) 0x21 h 2 2 [] (fun t => s.onlyGatehouse t))) ∧
    (s.runs 0x22 h [] = true →
      (s.loadCheck ≠ 0 → s.replies (.imageCommit h) 0x22 h 2 s.loadCheck [] (fun t => s.onlyGatehouse t)) ∧
      (∀ l, s.loadCheck = 0 → s.boot.load = some l →
        let c := s.imageCheck l.bytes l.flash l.addr
        (c.2 = none → s.replies (.imageCommit h) 0x22 h 2 c.1 [] (fun t => s.onlyGatehouse t)) ∧
        (∀ i, c.2 = some i → l.kind = 0 → i.data 5 0 = none → (∀ b, i.data 3 b = none) → s.clk.spllStarted = true →
          s.replies (.imageCommit h) 0x22 h 0 0 [i.id, 0] (fun t => t.boot.base = some i ∧ t.boot.slots = [] ∧
            t.boot.ovlCount = 0 ∧ t.boot.load = none ∧ t.mode = s.mode ∧ t.clk = s.clk ∧
            t.reg 0x1800C = (if l.flash then l.addr else 0xFFFFFFFF) ∧
            (∀ k d, k < 128 → i.data 1 k = some d → s.domainOn (terraceId k) = true →
              (t.terr k).configured = true ∧ (t.terr k).config = (s.terr k).arrived ∧ (t.terr k).started = false ∧
              (t.terr k).plane = false ∧ (t.terr k).activeImage = i.id))) ∧
        (∀ i, c.2 = some i → l.kind = 0 → i.data 5 0 = none → s.clk.spllStarted = false → (∀ b, i.data 3 b = none) →
          s.replies (.imageCommit h) 0x22 h 0 0 [i.id, 0] (fun t => t.boot.base = some i ∧
            t.clk.startDue = some (fld (i.header.getD 7 0) 1 1, s.now + 500000000000))) ∧
        (∀ i, c.2 = some i → l.kind = 1 → s.replies (.imageCommit h) 0x22 h 0 0 [i.id, w32 i.seq.toNat] (fun t =>
          t.slot l.ovl = some i ∧ t.boot.ovlCount = i.seq.toNat ∧ t.boot.load = none ∧ t.boot.base = s.boot.base ∧
          t.terraces = s.terraces)))) ∧
    (s.runs 0x26 h [] = true →
      (s.boot.base = none → s.replies (.start h) 0x26 h 2 0x24 [] (fun t => s.onlyGatehouse t)) ∧
      (s.boot.base ≠ none → (s.pll 15).lock = false ∨ s.usedOutputs.all s.outputReady = false →
        s.replies (.start h) 0x26 h 2 0x11 [] (fun t => s.onlyGatehouse t)) ∧
      (s.boot.base ≠ none → (s.pll 15).lock = true → s.usedOutputs.all s.outputReady = true → s.unstarted ≠ [] →
        s.replies (.start h) 0x26 h 0 0 [] (fun t => t.boot.releasing = true ∧ t.mode = s.mode ∧
          t.terraces = s.terraces ∧ t.regs = s.regs)))) ∧
  (∀ (s : State) (dt : Nat),
    let s' := s.advance dt
    s'.live = true →
    let inReset := fun (t0 b : Nat) => s'.lineSource t0 (s'.lineOf t0 (.bay b)) ≠ none ∧
      (s'.user t0).edges.getD (s'.lineOf t0 (.bay b)) 0 < 4
    (∀ t0, t0 < 128 → s'.terrUp t0 = true → (s'.terr t0).started = false → s'.boot.releasing = true →
      (∀ b, b < 512 → ¬ inReset t0 b) →
      s.completes (.terraceStart t0 dt) (fun t => (t.terr t0).started = true ∧
        (∀ k, k ≠ t0 → t.terr k = s'.terr k) ∧
        (s'.unstarted = [t0] → t.mode = .staging ∧ t.boot.started = true ∧ t.boot.releasing = false) ∧
        ((∃ k, k ∈ s'.unstarted ∧ k ≠ t0) → t.mode = s'.mode ∧ t.boot.releasing = true) ∧
        (∀ p, p < 416 → (s'.pin p).configured = true → pinTerr (s'.pin p).cfg = t0 →
          pinCairn (s'.pin p).cfg = true → pinHold (s'.pinNext p) = 5 →
          (t.pin p).cairnVal = true ∧ (t.pin p).cairnOe = true))) ∧
    (∀ t0, t0 < 128 → (s'.terrUp t0 = false ∨ (s'.terr t0).started = true ∨ ∃ b, b < 512 ∧ inReset t0 b) →
      exec (.terraceStart t0 dt) s = .next s') ∧
    (∀ l bytes, s'.boot.load = some l →
      (l.flash = true → l.reading = true → bytes.length = l.len → s.completes (.flashLoadEnd bytes dt) (fun t =>
        t.boot.load = some { l with bytes := bytes, reading := false } ∧ t.boot.bus = State.headerBus (imageHeader bytes) ∧
        t.reg 0x18008 = w32 l.len)) ∧
      (l.flash = false ∨ l.reading = false → exec (.flashLoadEnd bytes dt) s = .next s')) ∧
    (∀ primary fallback stable, s'.gh.ready = true → s'.bfRstN = true → s'.boot.booting = true → s'.mode = .boot →
      let bad := fun (f : List Byte) => partOk (imageHeader f) = false
      -- a copy whose header and checks pass, with the clocks started
      let good := fun (u : State) (f : List Byte) (a : Word) (i : Image) =>
        let len := ((imageHeader f).getD 5 0).toNat + 512
        partOk (imageHeader f) = true ∧ headerOk (imageHeader f) (f.take len).length = true ∧
        fld ((imageHeader f).getD 1 0) 23 16 = 0 ∧ i.data 5 0 = none ∧ u.imageCheck (f.take len) true a = (0, some i)
      (bad primary → bad fallback → s.completes (.flashBoot primary fallback stable dt) (fun t => t.boot.priFail = 3 ∧
        t.boot.fbFail = 3 ∧ t.boot.booting = false ∧ t.boot.base = none ∧ t.mode = .boot ∧
        s'.logs t 0x4A 0x000C (w32 3))) ∧
      (∀ i, s'.clk.spllStarted = true → good s' primary 0 i → s.completes (.flashBoot primary fallback stable dt) (fun t =>
        t.boot.base = some i ∧ t.boot.booting = false ∧ t.boot.priFail = s'.boot.priFail ∧ t.boot.fallback = false ∧
        t.boot.bus = State.headerBus (imageHeader primary) ∧ t.reg 0x1800C = 0 ∧ (s'.boot.bootsel = 2 → bit ((imageHeader primary).getD 7 0) 0 = true →
          t.boot.autostartDue = some (s'.now + 10000000000))))) ∧
    (s'.gh.ready = false ∨ s'.bfRstN = false ∨ s'.boot.booting = false → ∀ primary fallback stable, exec (.flashBoot primary fallback stable dt) s = .next s') ∧
    (s'.mode = .boot → ∀ due, s'.boot.autostartDue = some due → s'.boot.started = true ∨ s'.boot.releasing = true →
      exec (.autostart dt) s = .next { s' with boot := { s'.boot with autostartDue := none } }) ∧
    (s'.mode = .boot → ∀ due, s'.boot.autostartDue = some due → s'.boot.started = false → s'.boot.releasing = false →
      (s'.boot.base ≠ none → s'.linePllsLocked = true → s'.now ≤ due →
        s.completes (.autostart dt) (fun t => t.boot.autostarted = true ∧ t.boot.autostartDue = none ∧
          ((s'.pll 15).lock = true → s'.usedOutputs.all s'.outputReady = true →
            (s'.unstarted ≠ [] → t.boot.releasing = true) ∧ (s'.unstarted = [] → t.mode = .staging)) ∧
          ((s'.pll 15).lock = false ∨ s'.usedOutputs.all s'.outputReady = false → t.boot.releasing = false ∧ t.mode = .boot))) ∧
      (s'.linePllsLocked = false → due ≤ s'.now → s'.boot.fallback = false → s.completes (.autostart dt) (fun t =>
        t.boot.priFail = 6 ∧ t.boot.autostartDue = none ∧ t.boot.autostarted = s'.boot.autostarted ∧
        s'.logs t 0x4A 0x000C (w32 6))) ∧
      (s'.linePllsLocked = false → s'.now < due → exec (.autostart dt) s = .next s')) ∧
    (∀ data, s'.boot.rawBusy = true →
      (∀ c, s'.boot.rawRead = some c → data.length = c → c ≤ 256 → s.completes (.rawCommandEnd data dt) (fun t =>
        t.boot.rawBusy = false ∧ bit (t.reg 0x18040) 31 = true ∧ bit (t.reg 0x18040) 30 = false ∧
        fld (t.reg 0x18040) 15 0 = (fld (s'.reg 0x18040) 15 0 + 1) % 65536 ∧
        ∀ k, 4 * k + 4 ≤ c → t.reg (0x18100 + 4 * k) = beWord ((data.drop (4 * k)).take 4))) ∧
      (s'.boot.rawRead = none → s.completes (.rawCommandEnd data dt) (fun t => t.boot.rawBusy = false ∧
        bit (t.reg 0x18040) 31 = true ∧ ∀ k, k < 64 → t.reg (0x18100 + 4 * k) = s'.reg (0x18100 + 4 * k)))) ∧
    (s'.boot.rawBusy = false → ∀ data, exec (.rawCommandEnd data dt) s = .next s') ∧
    (∀ t0 crcOk, t0 < 128 →
      ((s'.terr t0).restoring = true → ∀ b d, s'.boot.base = some b → b.data 1 t0 = some d →
        (crcOk = true → s'.reg 0x1800C ≠ 0xFFFFFFFF → s.completes (.terraceRestore t0 crcOk dt) (fun t =>
          (t.terr t0).configured = true ∧ (t.terr t0).config = d ∧ (t.terr t0).plane = false ∧
          (t.terr t0).restoring = false ∧ (t.terr t0).releaseDue = s'.boot.started ∧ t.regs = s'.regs)) ∧
        (crcOk = false → s.completes (.terraceRestore t0 crcOk dt) (fun t => bit (t.reg 0xF40000) 29 = true ∧
          (t.terr t0).restoring = false ∧ (t.terr t0).configured = (s'.terr t0).configured))) ∧
      ((s'.terr t0).restoring = false → exec (.terraceRestore t0 crcOk dt) s = .next s'))) ∧
  (∀ (s : State) (who : Accessor) (value : Word), Accessor.ok who = true → s.mayAccess who true 0x18020 = true →
    (bit (s.peekFlash 0) 31 = false → fld value 24 16 ≤ 256 → s.completes (.bfCmdWrite who value) (fun t =>
      t.boot.rawBusy = true ∧ t.boot.rawRead = (if bit value 25 then none else some (fld value 24 16)) ∧
      bit (t.reg 0x18040) 31 = false ∧ s.onlyRegs { t with boot := s.boot } [0x18040])) ∧
    (bit (s.peekFlash 0) 31 = true ∨ 256 < fld value 24 16 → exec (.bfCmdWrite who value) s = .next s))

/-- R463, R467-R483. -/
def Obligations.OverlaysAndModes : Prop :=
  (∀ (s : State) (h : Hdr) (ovl mode cairn : Word),
    let n := ovl.toNat
    let m := mode.toNat
    let k := cairn.toNat
    let c := s.cairn k
    -- the checks of a binding, for overlay number o
    let bind := fun (o : Nat) =>
      if s.ovl.bound = true then 0x30
      else if s.ovl.id ≠ o ∨ (s.ovl.busy = false ∧ s.ovl.ready = false) then 0x1E
      else if c.kind ≠ 2 ∨ c.bound = true then 0x02
      else if c.committed = true ∨ reached s.tb.fp c.pos = true then (0x21 : Byte) else 0
    let isBound := fun (enter : Bool) (t : State) =>
      t.ovl = { s.ovl with bound := true, auto := false, cairn := k, modeEnter := enter } ∧ (t.cairn k).bound = true ∧
      (t.cairn k).act = c.act ∧ (t.cairn k).sf = c.sf ∧ (t.cairn k).fp = c.fp ∧ (∀ j, j ≠ k → t.cairn j = s.cairn j) ∧
      ({ t with gh := s.gh, ovl := s.ovl, cairns := s.cairns, tick := s.tick } : State) = s
    (s.runs 0x23 h [ovl] = true → s.weakAt (.overlayStore n) = .uncorrectable →
      s.replies (.overlayStage h ovl) 0x23 h 3 3 [] (fun t => t.slot n = none)) ∧
    (s.runs 0x23 h [ovl] = true → s.weakAt (.overlayStore n) = .clean →
      (n < 1 ∨ 8 < n ∨ s.slot n = none →
        s.replies (.overlayStage h ovl) 0x23 h 2 2 [] (fun t => s.onlyGatehouse t)) ∧
      (1 ≤ n → n ≤ 8 → s.slot n ≠ none → s.ovl.bound = true → s.ovl.id ≠ n →
        s.replies (.overlayStage h ovl) 0x23 h 2 0x30 [] (fun t => s.onlyGatehouse t)) ∧
      (s.stageCheck n ≠ 0 →
        s.replies (.overlayStage h ovl) 0x23 h 2 (s.stageCheck n) [] (fun t => s.onlyGatehouse t)) ∧
      (s.stageCheck n = 0 → s.ovl.id = n → (s.ovl.busy = true ∨ s.ovl.ready = true) →
        s.replies (.overlayStage h ovl) 0x23 h 0 0 [] (fun t => s.onlyGatehouse t)) ∧
      (∀ i, s.stageCheck n = 0 → s.slot n = some i → (s.ovl.id ≠ n ∨ (s.ovl.busy = false ∧ s.ovl.ready = false)) →
        s.replies (.overlayStage h ovl) 0x23 h 0 0 [] (fun t =>
          t.ovl = { s.ovl with id := n, busy := true, ready := false, image := some i } ∧
          (∀ k', i.ownsTerr k' = true → k' < 128 →
            let kept := (s.terr k').repairs.filter (fun l => decide (bit l 31 = (s.terr k').plane))
            t.terr k' = { s.terr k' with shadowOk := false, stagingShadow := true, shadowSrc := 15, repairs := kept }) ∧
          (∀ j k', s.ovl.image = some j → j.ownsTerr k' = true → k' < 128 → i.ownsTerr k' = false →
            t.terr k' = { s.terr k' with shadowOk := false, stagingShadow := false }) ∧
          (∀ k', (t.terr k').config = (s.terr k').config ∧ (t.terr k').plane = (s.terr k').plane) ∧
          ({ t with gh := s.gh, ovl := s.ovl, terraces := s.terraces, tick := s.tick } : State) = s))) ∧
    (s.runs 0x24 h [ovl, cairn] = true → s.cairnBad k = true → 1 ≤ n → n ≤ 8 → k ≤ 4095 → (n = s.mode.code ∨ 6 < n) →
      s.replies (.overlayApply h ovl cairn) 0x24 h 3 3 [] (fun t => (t.cairn k).free = true)) ∧
    (s.runs 0x24 h [ovl, cairn] = true → s.weak = [] →
      (n < 1 ∨ 8 < n ∨ 4095 < k ∨ (n ≤ 6 ∧ n ≠ s.mode.code) →
        s.replies (.overlayApply h ovl cairn) 0x24 h 2 2 [] (fun t => s.onlyGatehouse t)) ∧
      (1 ≤ n → n ≤ 8 → k ≤ 4095 → (n = s.mode.code ∨ 6 < n) →
        (bind n ≠ 0 → s.replies (.overlayApply h ovl cairn) 0x24 h 2 (bind n) [] (fun t => s.onlyGatehouse t)) ∧
        (bind n = 0 → s.replies (.overlayApply h ovl cairn) 0x24 h 0 0 [] (isBound false)))) ∧
    (s.runs 0x25 h [mode, cairn] = true → s.weak = [] →
      (m < 1 ∨ 6 < m ∨ 4095 < k ∨ m = s.mode.code →
        s.replies (.modeEnter h mode cairn) 0x25 h 2 2 [] (fun t => s.onlyGatehouse t)) ∧
      (∀ md : Mode, md.code = m → 1 ≤ m → m ≤ 6 → k ≤ 4095 → md ≠ s.mode →
        (modeAllowed s.mode md = false →
          s.replies (.modeEnter h mode cairn) 0x25 h 2 5 [] (fun t => s.onlyGatehouse t)) ∧
        (modeAllowed s.mode md = true → bind m ≠ 0 →
          s.replies (.modeEnter h mode cairn) 0x25 h 2 (bind m) [] (fun t => s.onlyGatehouse t)) ∧
        (modeAllowed s.mode md = true → bind m = 0 → m = 2 → s.refSel ≠ 0 → s.tb.lock = false →
          s.replies (.modeEnter h mode cairn) 0x25 h 2 0x1B [] (fun t => s.onlyGatehouse t)) ∧
        (modeAllowed s.mode md = true → bind m = 0 → (m = 2 → s.refSel = 0 ∨ s.tb.lock = true) →
          s.replies (.modeEnter h mode cairn) 0x25 h 0 0 [] (isBound true))))) ∧
  (∀ a b : Mode, modeAllowed a b = true → a ≠ b ∧ a ≠ .boot ∧ a ≠ .stop ∧ b ≠ .boot ∧ b ≠ .stop ∧
    (b = .staging → a = .service ∨ a = .maintain ∨ a = .drain) ∧ (b = .holdover → a ≠ .staging ∧ a ≠ .drain)) ∧
  (∀ (s : State) (dt k : Nat) (i : Image),
    let s' := s.advance dt
    let c := s'.cairn k
    -- the plane switch of image i, in a terrace and in the overlay's record
    let switched := fun (t : State) =>
      (∀ j, j < 128 → i.ownsTerr j = true → let x := s'.terr j
        (t.terr j).plane = !x.plane ∧ (t.terr j).config = x.shadow ∧ (t.terr j).shadow = x.config ∧
        (t.terr j).activeSrc = x.shadowSrc ∧ (t.terr j).activeImage = x.shadowImage ∧ (t.terr j).shadowSrc = x.activeSrc ∧
        (t.terr j).shadowImage = x.activeImage ∧ (t.terr j).shadowOk = false) ∧
      (∀ j, i.ownsTerr j = false → t.terr j = s'.terr j) ∧
      (∀ p, i.ownsPin p = false → t.pin p = s'.pin p) ∧
      (∀ p, p < 416 → i.ownsPin p = true → t.pinNext p = bankPin ((i.data 3 (p / 32)).getD []) (p % 32) ∧
        (((t.pin p).next = none ∧ (t.pin p).src = s'.ovl.id) ∨
          ((t.pin p).next.map (·.2) = some s'.ovl.id ∧ (t.pin p).cfg = (s'.pin p).cfg ∧ (t.pin p).src = (s'.pin p).src))) ∧
      t.ovl.id = 0 ∧ t.ovl.busy = false ∧ t.ovl.ready = false ∧ t.ovl.image = none ∧ t.ovl.bound = false ∧
      t.bram = s'.bram ∧ t.boot = s'.boot ∧ t.engines = s'.engines
    s'.live = true → s'.ovl.image = some i →
    (s'.ovl.busy = true → s.completes (.stagingEnd dt) (fun t =>
      t.ovl = { s'.ovl with busy := false, ready := true } ∧
      (∀ j, j < 128 → i.ownsTerr j = true → t.terr j = { s'.terr j with
        shadow := (i.data 1 j).getD [], shadowOk := true, stagingShadow := false, shadowSrc := s'.ovl.id,
        shadowImage := i.id }) ∧
      (∀ j, i.ownsTerr j = false → t.terr j = s'.terr j) ∧
      ({ t with ovl := s'.ovl, terraces := s'.terraces, tick := s'.tick } : State) = s')) ∧
    (s'.ovl.busy = false → exec (.stagingEnd dt) s = .next s') ∧
    (k < 4096 → s.weak = [] → s'.endedNow k = false → s'.duesBefore k = [] →
      s'.tbOn = true → c.kind = 2 → c.bound = true → c.armedAll = true → reached s'.tb.fp c.pos = true → s'.targetsOut k = 0 → s'.ovl.ready = true → s.completes (.cairnFire k dt) (fun t => switched t ∧
        t.reg 0x30080 = satAdd (s'.reg 0x30080) 1 ∧ (s'.ovl.modeEnter = false → t.mode = s'.mode) ∧
        (∀ md : Mode, s'.ovl.modeEnter = true → md.code = s'.ovl.id → 1 ≤ s'.ovl.id → s'.ovl.id ≤ 6 → t.mode = md))) ∧
    (s'.ovl.bound = true → s'.ovl.auto = true → reached s'.tb.fp s'.ovl.autoAt = true →
      (s'.ownBlocked i = none → s'.ovl.ready = true → s'.ovl.id = 4 →
        s.completes (.autonomousSwitch dt) (fun t => t.mode = .holdover ∧ switched t)) ∧
      (s'.ownBlocked i = none → (s'.ovl.ready = false ∨ s'.ovl.id ≠ 4) →
        s.completes (.autonomousSwitch dt) (fun t => t.mode = .holdover ∧ t.ovl.bound = false ∧ t.ovl.reason = 0x1E ∧
          t.terraces = s'.terraces ∧ t.pins = s'.pins)) ∧
      (∀ d r, s'.ownBlocked i = some (d, r) → s.completes (.autonomousSwitch dt) (fun t => t.mode = .holdover ∧
        t.ovl.bound = false ∧ t.ovl.reason = r.toNat ∧ t.ovl.ready = s'.ovl.ready ∧
        (s'.ovl.ready = true → t.ovl.image = some i ∧ t.ovl.id = s'.ovl.id) ∧
        (s'.ovl.ready = false → s'.ovl.busy = false → t.ovl.image = none ∧ t.ovl.id = 0) ∧ t.terraces = s'.terraces ∧ t.pins = s'.pins ∧ s'.logs t 0x41 0 (w32 d)))) ∧
    (s'.ovl.bound = false ∨ s'.ovl.auto = false → exec (.autonomousSwitch dt) s = .next s'))

/-- R52, R69, R78, R438, R440-R445, R490, R510. -/
def Obligations.Resets : Prop :=
  let isReset := fun (u t : State) (bootsel : Nat) =>
    t.mode = .boot ∧ t.stopPend = false ∧ t.pending = u.pending ∧ t.now = u.now ∧
    t.boot = { bootsel := bootsel % 4 } ∧ t.gh.ready = false ∧ t.gh.running = none ∧ t.gh.held = {} ∧ t.gh.cache = [] ∧
    t.gh.auth = 0 ∧ t.gh.wdog = 0 ∧ t.tb = {} ∧ t.keys = [] ∧ t.events = [] ∧ t.latch = [] ∧ t.pwr = { t0 := u.now } ∧
    (∀ k, t.cairn k = {} ∧ t.lane k = {} ∧ t.chan k = {} ∧ t.cis k = {} ∧ t.terr k = {} ∧ t.pin k = {} ∧ t.pll k = {} ∧
      t.eng k = {} ∧ t.dr k = {} ∧ t.thread k = {} ∧ t.queue k = {} ∧ t.scan k = none ∧ t.slot k = none) ∧
    (∀ d, t.domainOn d = true ∧ t.gateOpen d = true ∧ t.fence d = .opened) ∧
    (∀ a, a ∉ [0x700200, 0x700204, 0x700208, 0x70020C] → a ≠ 0x18 → t.reg a = resetWord a) ∧
    (bootsel % 4 ≠ 3 → t.reg 0x18 = resetWord 0x18 ∧ t.log = {} ∧ t.gh.alert = false) ∧
    (bootsel % 4 = 3 → bit (t.reg 0x18) 21 = true ∧ t.gh.alert = true ∧
      ∃ e, t.log.entries = [e] ∧ fld (e.words.getD 0 0) 27 16 = 0x4B ∧ e.words.getD 6 0 = 3)
  let keepsStop := fun (u t : State) =>
    t.jtag = u.jtag ∧ ∀ a, a ∈ [0x700200, 0x700204, 0x700208, 0x70020C] → t.reg a = u.reg a
  let portIdle := fun (t : State) =>
    t.gh.running = none ∧ t.gh.held = {} ∧ t.gh.cache = [] ∧ t.gh.badFrames = 0 ∧ t.gh.auth = 0 ∧ t.gh.challenge = none
  (∀ (s : State) (h : Hdr) (bootsel : Nat),
    (s.runs 0x7F h [0] = true → s.completes (.resetCommandPort h) (fun t => portIdle t ∧
      (s.gh.auth ≠ 3 → s.onlyGatehouse t ∧ t.gh.wdog = s.gh.wdog ∧ t.gh.ready = s.gh.ready) ∧
      (s.gh.auth = 3 → t.reg 0xE80100 = 0 ∧ t.reg 0xE80104 = 0 ∧ t.reg 0xE80060 = 0))) ∧
    (s.runs 0x7F h [1] = true → ∀ r, s.gh.running = some r →
      let left := 5000 - (s.now - r.acceptedAt) / 2000
      s.completes (.resetDevice h bootsel) (fun t =>
        isReset (s.advance left) t bootsel ∧ keepsStop s t ∧ (s.advance left).now = s.now + 2000 * left)) ∧
    s.completes (.powerGood bootsel) (fun t => isReset s t bootsel ∧ t.jtag = {} ∧
      ∀ a, a ∈ [0x700200, 0x700204, 0x700208, 0x70020C] → t.reg a = resetWord a)) ∧
  (∀ (s : State) (dt low bootsel : Nat),
    let s' := s.advance dt
    (low < 1000 ∨ s'.pwr.held = true → exec (.resetN low bootsel dt) s = .next s') ∧
    (s'.pwr.held = false → 10000 ≤ low → s.completes (.resetN low bootsel dt) (fun t =>
      isReset s' t bootsel ∧ keepsStop s' t)) ∧
    (s'.pwr.held = false → 1000 ≤ low → low < 10000 → s.completes (.resetN low bootsel dt) (fun t =>
      t = { s' with freeCtr := s'.freeCtr + 1 } ∨ (isReset s' t bootsel ∧ keepsStop s' t))) ∧
    (low ≤ 1000 → exec (.supplyUndervoltage low dt) s = .next s') ∧
    (1000 < low → s.completes (.supplyUndervoltage low dt) (fun t => t.pwr.held = true ∧ t.live = false ∧
      t.mode = .boot ∧ t.keys = [] ∧ keepsStop s' t)) ∧
    (s'.pwr.held = true → s.completes (.undervoltageRelease bootsel dt) (fun t =>
      isReset s' t bootsel ∧ keepsStop s' t ∧ t.pwr.held = false)) ∧
    (s'.pwr.held = false → exec (.undervoltageRelease bootsel dt) s = .next s') ∧
    (s.pwr.held = true → (s.tick.ended = [] →
        ({ s.advance dt with keepers := s.keepers } : State) = { s with now := s.now + 2000 * dt, tick := s.tick.after dt }) ∧
      (∀ bytes early, exec (.writePacket bytes early) s = .next s) ∧ (∀ early n, exec (.readReply early n) s = .next s) ∧
      (∀ early, exec (.readStatus early) s = .next s) ∧ (∀ h, exec (.ping h []) s = .next s))) ∧
  (∀ (s : State) (blk dt : Nat),
    let s' := s.advance dt
    s'.live = true →
    (blk ∈ allDomains → s'.pwr.opOn = false → s.completes (.memoryFillEnd blk dt) (fun t =>
      Table.get (fun _ => false) t.pwr.filled blk = true ∧
      (∀ k, k ≠ blk → Table.get (fun _ => false) t.pwr.filled k = Table.get (fun _ => false) s'.pwr.filled k) ∧
      ({ t with pwr := { t.pwr with filled := s'.pwr.filled } } : State) = s')) ∧
    (s'.gh.ready = false → (∀ d, d ∈ allDomains → Table.get (fun _ => false) s'.pwr.filled d = true) →
      s.completes (.gatehouseReady dt) (fun t => t.gh = { s'.gh with ready := true } ∧
        t.boot = { s'.boot with booting := decide (s'.boot.bootsel = 1 ∨ s'.boot.bootsel = 2) } ∧
        ({ t with gh := s'.gh, boot := s'.boot, tick := s'.tick } : State) = s')) ∧
    (s'.gh.ready = true ∨ (∃ d, d ∈ allDomains ∧ Table.get (fun _ => false) s'.pwr.filled d = false) →
      exec (.gatehouseReady dt) s = .next s') ∧
    (s.gh.ready = false → s.pwr.held = false → ∀ bytes, s.completes (.writePacket bytes false) (fun t =>
      s.onlyGatehouse t ∧ t.gh.lastStatus = 0x02 ∧ t.gh.lastReason = 0x30 ∧ t.gh.held = s.gh.held)) ∧
    (s'.gh.ready = true → s.completes (.gatehouseRestart dt) (fun t => portIdle t ∧
      (s'.gh.auth ≠ 3 → t.gh.wdog = s'.gh.wdog ∧ t.gh.ready = true ∧
        ({ t with gh := s'.gh, log := s'.log, regs := s'.regs, trace := s'.trace, tick := s'.tick } : State) = s' ∧
        (∀ a, a ∉ [0x18, 0xD00000] → t.reg a = s'.reg a) ∧
        s'.logs t 0x49 1 (w32 (match s'.gh.running with | some r => r.op | none => 0))))) ∧
    (s'.gh.ready = false → exec (.gatehouseRestart dt) s = .next s'))

/-- R415, R416, R434, R484, R491-R500, R502-R508. The order of tests in PAGE_RETIRE is its table's. -/
def Obligations.LogAndScrub : Prop :=
  (∀ (s : State) (h : Hdr) (first count ch hi lo : Word),
    let big := 2 ^ 32 - 1
    let dist := fun (a b : Nat) => (b + big - a) % big
    let num := fun (j : Nat) => if first = 0 then j else (first.toNat - 1 + j) % big + 1
    let entry := fun (n : Nat) => match s.log.entries.find? (fun x => decide (x.seq = n)) with
      | some x => x.words
      | none => [0, BitVec.ofNat 32 n, 0, 0, 0, 0, 0, 0]
    (s.runs 0x60 h [first, count] = true →
      (count.toNat < 1 ∨ 64 < count.toNat → s.replies (.logRead h first count) 0x60 h 2 2 [] (fun t => s.onlyGatehouse t)) ∧
      (1 ≤ count.toNat → count.toNat ≤ 64 → s.weak = [] →
        s.replies (.logRead h first count) 0x60 h 0 0 ((List.range count.toNat).flatMap (fun j => entry (num j)))
          (fun t => s.onlyGatehouse t))) ∧
    (s.runs 0x61 h [first] = true →
      (first = 0 → s.replies (.logAck h first) 0x61 h 0 0 [] (fun t => s.onlyGatehouse t)) ∧
      (first ≠ 0 → s.log.entries = [] → first.toNat = s.log.newest + 1 →
        s.replies (.logAck h first) 0x61 h 2 2 [] (fun t => s.onlyGatehouse t)) ∧
      (∀ x more, first ≠ 0 → s.log.entries = x :: more → s.tick.logged = 0 →
        (dist x.seq first.toNat ≤ dist x.seq s.log.newest → s.replies (.logAck h first) 0x61 h 0 0 [] (fun t =>
          t.log = { s.log with
            entries := s.log.entries.filter (fun y => decide (dist x.seq first.toNat < dist x.seq y.seq)) } ∧
          ({ t with gh := s.gh, log := s.log, tick := s.tick } : State) = s)) ∧
        (dist x.seq s.log.newest < dist x.seq first.toNat → dist first.toNat x.seq ≤ 2 ^ 31 →
          s.replies (.logAck h first) 0x61 h 0 0 [] (fun t => s.onlyGatehouse t)) ∧
        (dist x.seq s.log.newest < dist x.seq first.toNat → 2 ^ 31 < dist first.toNat x.seq →
          s.replies (.logAck h first) 0x61 h 2 2 [] (fun t => s.onlyGatehouse t)))) ∧
    (s.pwr.held = false → s.accepted 0x62 h [ch, hi, lo] = true → s.bistRefuses 0x62 h [ch, hi, lo] = false → ch.toNat ≤ 15 →
      s.domainOn (ridgeId (ch.toNat / 4)) = false →
      s.replies (.pageRetire h ch hi lo) 0x62 h 2 7 [] (fun t => s.onlyGatehouse t)) ∧
    (s.runs 0x62 h [ch, hi, lo] = true →
      let d := ch.toNat
      let p := lo.toNat / 4096
      (15 < d ∨ hi ≠ 0 ∨ lo.toNat % 4096 ≠ 0 ∨ s.drBytes d ≤ lo.toNat →
        s.replies (.pageRetire h ch hi lo) 0x62 h 2 2 [] (fun t => s.onlyGatehouse t)) ∧
      (d ≤ 15 → hi = 0 → lo.toNat % 4096 = 0 → lo.toNat < s.drBytes d →
        (s.domainOn (ridgeId (d / 4)) = true → (s.dr d).trained = false →
          s.replies (.pageRetire h ch hi lo) 0x62 h 2 0x19 [] (fun t => s.onlyGatehouse t)) ∧
        (s.domainOn (ridgeId (d / 4)) = true → (s.dr d).trained = true →
          ((∃ r, r ∈ (s.dr d).retired ∧ r.page = p) →
            s.replies (.pageRetire h ch hi lo) 0x62 h 2 0x1F [] (fun t => s.onlyGatehouse t)) ∧
          ((∀ r, r ∈ (s.dr d).retired → r.page ≠ p) → 1024 ≤ (s.dr d).retired.length →
            s.replies (.pageRetire h ch hi lo) 0x62 h 2 2 [] (fun t => s.onlyGatehouse t)) ∧
          ((∀ r, r ∈ (s.dr d).retired → r.page ≠ p) → (s.dr d).retired.length < 1024 →
            s.replies (.pageRetire h ch hi lo) 0x62 h 0 0 [] (fun t =>
              t.dr d = { s.dr d with retired := (s.dr d).retired ++ [{ page := p, pending := s.spillInUse d p }] } ∧
              (∀ k, k ≠ d → t.dr k = s.dr k) ∧
              (s.spillInUse d p = true → t.regs = s.regs ∧ t.log = s.log) ∧
              (s.spillInUse d p = false → t.reg 0x2C = satAdd (s.reg 0x2C) 1 ∧
                s.logs t 0x11 (dramId d) (BitVec.ofNat 32 p)))))))) ∧
  (∀ (s : State) (who : Accessor) (value : Word), Accessor.ok who = true → s.mayAccess who true 0xD0000C = true →
    (s.log.entries.length < 992 → s.completes (.logInjectWrite who value) (fun t => s.logs t 0x60 8 value)) ∧
    (992 ≤ s.log.entries.length → exec (.logInjectWrite who value) s = .next s)) ∧
  (∀ (s : State) (t0 bay frame word b dt : Nat), t0 < 128 → bay < 512 → frame < 9 → word < 63 → b < 39 →
    let s' := s.advance dt
    let x := s'.terr t0
    let a := 0x101F010 + 0x20000 * t0
    let loc := fun (shadow : Bool) => BitVec.ofNat 32
      ((if x.plane != shadow then 2 ^ 31 else 0) + bay * 65536 + frame * 4096 + word * 64 + b)
    let counted := fun (t : State) =>
      fld (t.reg a) 15 0 = Min.min 0xFFFF (fld (s'.reg a) 15 0 + 1) ∧ fld (t.reg a) 31 16 = fld (s'.reg a) 31 16
    let waits := s'.switchNear t0 = true ∨ x.anyHeld s'.now = true ∨ ∃ h, h ∈ x.holdStarts ∧ h.1 = bay ∧ s'.now < h.2 + 1000000
    let began := x.heldSince s'.now ++ [(bay, s'.now)]
    -- a frame waits once
    let queued := fun (l : Word) => if x.repairs.any (fun r => decide (r.toNat / 4096 = l.toNat / 4096)) then x.repairs
      else x.repairs ++ [l]
    let pace := fld (s.reg a) 23 16
    (∀ p, p < 9216 → s.scrubs t0 = true → s.pwr.held = false → s.stopPend = false → 0 < pace →
      (s.terr t0).scrub = { next := p } → (s.terr t0).stagingShadow = false →
      ((s.advance (50 * pace)).terr t0).scrub = { next := (p + 1) % 9216, reads := some p }) ∧
    let told : Terrace := { x with scrub := { x.scrub with reads := none } }
    s'.live = true →
    (∀ shadow, s'.scrubs t0 = false ∨ x.scrub.reads ≠ some ((if shadow then 4608 else 0) + 9 * bay + frame) →
      ∀ got, exec (.configScrubRead t0 shadow bay frame word b got dt) s = .next s') ∧
    (s'.scrubs t0 = true →
      let force := x.scrub.reads = some (9 * bay + frame)
      let behind := x.scrub.reads = some (4608 + 9 * bay + frame)
      (∀ shadow, exec (.configScrubRead t0 shadow bay frame word b .clean dt) s = .next s') ∧
      (∀ got, x.stagingShadow = true → exec (.configScrubRead t0 true bay frame word b got dt) s = .next s') ∧
      (force → waits → s.completes (.configScrubRead t0 false bay frame word b .corrected dt) (fun t =>
        t.terr t0 = { told with repairs := queued (loc false) } ∧
        ({ t with terraces := s'.terraces, tick := s'.tick } : State) = s')) ∧
      (force → ¬ waits → s.completes (.configScrubRead t0 false bay frame word b .corrected dt) (fun t => counted t ∧
        t.terr t0 = { told with heldBay := some bay, heldUntil := s'.now + 40000, lastBay := bay, holdStarts := began } ∧
        (∀ k, k < 256 → ((t.user t0).kept bay).getD k false = s'.sourceBit t0 (.cell (64 * bay + k / 4) (k % 4))) ∧
        (∀ k, k ≠ t0 → t.terr k = s'.terr k) ∧
        ((Table.get (fun _ => {}) s'.log.suppress (terraceId t0)).active = false →
          s'.logs t 3 (terraceId t0) (loc false)))) ∧
      (behind → x.stagingShadow = false → s'.switchNear t0 = true →
        s.completes (.configScrubRead t0 true bay frame word b .corrected dt) (fun t =>
          t.terr t0 = { told with repairs := queued (loc true) } ∧
          ({ t with terraces := s'.terraces, tick := s'.tick } : State) = s')) ∧
      (behind → x.stagingShadow = false → s'.switchNear t0 = false →
        s.completes (.configScrubRead t0 true bay frame word b .corrected dt) (fun t => counted t ∧ t.terr t0 = told ∧
          ∀ k, k ≠ t0 → t.terr k = s'.terr k)) ∧
      (force → s.completes (.configScrubRead t0 false bay frame word b .uncorrectable dt) (fun t =>
        bit (t.reg a) 30 = true ∧ s'.logs t 4 (terraceId t0) (loc false) ∧ t.ovl = s'.ovl ∧
        (∀ k, k ≠ t0 → t.terr k = s'.terr k) ∧
        ((∀ f, f ∈ x.lost → State.sameFrame f.loc (loc false) = false) → (t.terr t0).holds s'.now bay = true ∧
          t.terr t0 = { told with
            lost := x.lost ++ [{ bay := bay, loc := loc false }], lastBay := bay, holdStarts := began } ∧
          (x.holds s'.now bay = false → ∀ k, k < 256 →
            ((t.user t0).kept bay).getD k false = s'.sourceBit t0 (.cell (64 * bay + k / 4) (k % 4)))) ∧
        ((∃ f, f ∈ x.lost ∧ State.sameFrame f.loc (loc false) = true) → t.terr t0 = told))) ∧
      (behind → x.stagingShadow = false → s.completes (.configScrubRead t0 true bay frame word b .uncorrectable dt) (fun t =>
        bit (t.reg a) 30 = true ∧ s'.logs t 4 (terraceId t0) (loc true) ∧ (t.terr t0).heldBay = x.heldBay ∧
        (t.terr t0).lost = x.lost ∧ (x.shadowOk = true → t.ovl.ready = false ∧ t.ovl.reason = 3 ∧ t.ovl.bound = s'.ovl.bound ∧
          (s'.ovl.bound = false → t.ovl.id = 0) ∧
          (∀ i k, s'.ovl.image = some i → i.ownsTerr k = true → k < 128 → (t.terr k).shadowOk = false)) ∧
        (x.shadowOk = false → t.ovl = s'.ovl ∧ t.terr t0 = told)))) ∧
    (let source := (x.activeSrc = 0 ∧ s'.reg 0x1800C ≠ 0xFFFFFFFF) ∨
       (x.activeSrc ≠ 0 ∧ ∃ i, s'.slot x.activeSrc = some i ∧ i.id = x.activeImage)
     ∀ crcOk,
      ((∀ f, f ∈ x.lost → f.noSource = true) ∨ s'.switchNear t0 = true ∨ x.configured = false →
        exec (.frameRestore t0 crcOk dt) s = .next s') ∧
      (∀ f more, x.lost = f :: more → f.noSource = false → s'.switchNear t0 = false → x.configured = true →
        (source → (x.activeSrc = 0 → crcOk = true) → s.completes (.frameRestore t0 crcOk dt) (fun t =>
          t.terr t0 = { x with lost := more } ∧ s'.logs t 5 (terraceId t0) f.loc ∧ t.reg a = s'.reg a)) ∧
        (¬ source ∨ (x.activeSrc = 0 ∧ crcOk = false) → (∀ g, g ∈ more → g ≠ f) →
          s.completes (.frameRestore t0 crcOk dt) (fun t => t.terr t0 = { x with lost := { f with noSource := true } :: more } ∧
            bit (t.reg a) 28 = true ∧ s'.logs t 6 (terraceId t0) f.loc)))) ∧
    (∀ m addr, m < 32 → addr < 1024 →
      (s'.terrUp t0 = false ∨ ((s'.user t0).scrubPort m).2 ≠ some addr →
        ∀ got, exec (.bramScrubRead t0 m addr got dt) s = .next s') ∧
      (s'.terrUp t0 = true → ((s'.user t0).scrubPort m).2 = some addr →
        let told := fun (t : State) => (t.user t0).scrubPort m = (((s'.user t0).scrubPort m).1, none) ∧ (∀ k, t.terr k = s'.terr k)
        let counts := fun (t : State) => t.reg (aTerr t0 + 0x38) = satAdd (s'.reg (aTerr t0 + 0x38)) 1 ∧
          (∀ k a, k < 32 → a < 1024 → (k, a) ≠ (m, addr) → t.bramWord t0 k a = s'.bramWord t0 k a) ∧
          s'.logs t 2 (terraceId t0) (BitVec.ofNat 32 (m * 0x10000 + addr))
        (s'.bramBroken t0 m addr = false →
          s.completes (.bramScrubRead t0 m addr .clean dt) (fun t => told t ∧ t.bram = s'.bram ∧ t.regs = s'.regs) ∧
          s.completes (.bramScrubRead t0 m addr .corrected dt) (fun t => told t ∧
            t.reg (aTerr t0 + 0x34) = satAdd (s'.reg (aTerr t0 + 0x34)) 1 ∧ t.bram = s'.bram) ∧
          s.completes (.bramScrubRead t0 m addr .uncorrectable dt) (fun t => told t ∧ counts t)) ∧
        (s'.bramBroken t0 m addr = true → ∀ got, s.completes (.bramScrubRead t0 m addr got dt) (fun t =>
          told t ∧ counts t ∧ t.bram = s'.bram))))) ∧
  (∀ (s : State) (dt k : Nat),
    let s' := s.advance dt
    -- the scrubber reads the place now, and no error waits there
    let on := fun (p : PatrolPlace) => s'.patrolMay p = true ∧ s'.heldUpset p = .clean
    let bad := fun (p : PatrolPlace) => Instr.patrolScrubRead p (.reads .uncorrectable) dt
    s'.live = true → s.weak = [] →
    (∀ n u, State.nodeOk n = true → u = .corrected ∨ u = .uncorrectable →
      s.completes (.patrolScrubRead (.counterNode n) (.struck u) dt) (fun t => t.weak = [(.counterNode n, u)] ∧
        ({ t with weak := [], tick := s'.tick } : State) = s')) ∧
    (∀ place u, State.patrolOk place = true →
      (bit (s'.reg 0xD00100) (State.patrolBit place) = false ∨ s'.domainOn (domainOf (State.patrolBlock place).1) = false ∨
        (∃ w, (place, w) ∈ s'.patrolled ∧ s'.now < w + max 1 (fld (s'.reg 0xD00100) 23 16) * 10000000000) →
        exec (.patrolScrubRead place (.reads u) dt) s = .next s')) ∧
    (∀ place, State.patrolOk place = true → on place → s.completes (.patrolScrubRead place (.reads .clean) dt) (fun t =>
      ({ t with patrolled := s'.patrolled } : State) = s' ∧ (patrolWord place = true → (place, s'.now) ∈ t.patrolled))) ∧
    (∀ w, k < 4096 → w < 4 → on (.cairnEntry k w) → s.completes (bad (.cairnEntry k w)) (fun t =>
      t.cairn k = {} ∧ (∀ j, j ≠ k → t.cairn j = s'.cairn j) ∧ t.events = s'.events ∧ s'.logs t 2 4 (BitVec.ofNat 32 k))) ∧
    (k < 64 → on (.keySlot k) →
      (s'.keyInUse k = true → s'.stopPend = false → s'.tick.ended = [] →
        s.completes (bad (.keySlot k)) (fun t => t.stopPend = true ∧
          t.reg 0x700200 = BitVec.ofNat 32 (2 ^ 31 + 4 * 2 ^ 24 + k * 2 ^ 16 + 6) ∧
          ∀ n, (t.advance (n + 1)).mode = .stop ∧ (t.advance (n + 1)).keys = [] ∧ (t.advance (n + 1)).gh.alert = true)) ∧
      (s'.keyInUse k = false → s.completes (bad (.keySlot k)) (fun t =>
        t.keySlot k = {} ∧ (∀ j, j ≠ k → t.keySlot j = s'.keySlot j) ∧ t.mode = s'.mode ∧
        s'.logs t 0x51 6 (BitVec.ofNat 32 k)))) ∧
    (1 ≤ k → k ≤ 8 → on (.overlayStore k) → s.completes (bad (.overlayStore k)) (fun t =>
      t.slot k = none ∧ (∀ j, j ≠ k → t.slot j = s'.slot j) ∧ t.ovl = s'.ovl ∧ t.terraces = s'.terraces)) ∧
    (∀ w, k < 8192 → w < 8 → on (.threadEntry k w) → s.completes (bad (.threadEntry k w)) (fun t =>
      (t.thread k).st = .halted ∧ (t.thread k).failed = true ∧ (t.thread k).pend = 0)) ∧
    (on (.logEntry k) → s.completes (bad (.logEntry k)) (fun t =>
      ∀ x, x ∈ s'.log.entries → x.seq = k → ∃ y, y ∈ t.log.entries ∧ y.seq = k ∧ bit (y.words.getD 0 0) 27 = true)) ∧
    (∀ a, k < 64 → a < 0x40000 → on (.scratchpad k a) → s.completes (bad (.scratchpad k a)) (fun t =>
      Table.get (fun _ => false) t.spadBad (k * 32768 + a / 8) = true ∧ t.spad = s'.spad ∧
      s'.logs t 2 (engineId k) (BitVec.ofNat 32 a))) ∧
    (k < 144 → on (.retryBuffer k) → s.completes (bad (.retryBuffer k)) (fun t =>
      (t.chan k).buffer = [] ∧ (t.chan k).round = [] ∧ (t.chan k).txSeq = 0 ∧
      t.reg (aCh k + 0x30) = satAdd (s'.reg (aCh k + 0x30)) (s'.chan k).buffer.length ∧
      (t.chan k).retired = (s'.chan k).retired ∧ s'.logs t 2 (chanId k) 0)) ∧
    (∀ a, k < 64 → a < 0x40000 → on (.scratchpad k a) →
      (Table.get (fun _ => {}) s'.log.suppress (engineId k)).active = false →
      s.completes (.patrolScrubRead (.scratchpad k a) (.reads .corrected) dt) (fun t =>
        s'.logs t 1 (engineId k) (BitVec.ofNat 32 a) ∧ t.spad = s'.spad ∧ t.spadBad = s'.spadBad)))

/-- R70, R515-R527. -/
def Obligations.SelfTestAndCapture : Prop :=
  (∀ (s : State) (h : Hdr) (mask sel form trigger cairn : Word),
    let m := mask.toNat
    let kind := fld sel 31 24
    let idx := fld sel 15 0
    let k := cairn.toNat
    let c := s.cairn k
    -- the sets of the mask
    let selected := fun (n : Nat) => n < 6 ∧ m / 2 ^ n % 2 = 1
    let words := fun (a : Nat) => [s.reg (a + 4), s.reg (a + 8), s.reg (a + 12), s.reg (a + 16)]
    (s.runs 0x50 h [mask] = true →
      (m = 0 ∨ 63 < m → s.replies (.bistRun h mask) 0x50 h 2 2 [] (fun t => s.onlyGatehouse t)) ∧
      (m ≠ 0 → m ≤ 63 → s.selfTest = true → s.replies (.bistRun h mask) 0x50 h 2 0x30 [] (fun t => s.onlyGatehouse t)) ∧
      (m ≠ 0 → m ≤ 63 → s.selfTest = false →
        ((∃ n, selected n ∧ s.setMode n = false) →
          s.replies (.bistRun h mask) 0x50 h 2 5 [] (fun t => s.onlyGatehouse t)) ∧
        ((∀ n, selected n → s.setMode n = true) →
          ((∃ n d, selected n ∧ d ∈ State.setDomains n ∧ s.domainOn d = false) →
            s.replies (.bistRun h mask) 0x50 h 2 7 [] (fun t => s.onlyGatehouse t)) ∧
          ((∀ n d, selected n → d ∈ State.setDomains n → s.domainOn d = true) →
            ((∃ n, selected n ∧ s.setQuiet n = false) →
              s.replies (.bistRun h mask) 0x50 h 2 0x30 [] (fun t => s.onlyGatehouse t)) ∧
            ((∀ n, selected n → s.setQuiet n = true) →
              s.replies (.bistRun h mask) 0x50 h 0 0 [] (fun t =>
                (∀ n, n ∈ t.bist.setsLeft ↔ selected n) ∧ t.bist.setsLeft.Pairwise (· < ·) ∧
                t.bist.setsLeft.head? = some t.bist.setNow ∧ t.bist.march = s.bist.march ∧
                (∀ n, selected n → bit (t.reg (0xE00100 + 0x20 * n)) 31 = false ∧
                  fld (t.reg (0xE00100 + 0x20 * n)) 15 0 = fld (s.reg (0xE00100 + 0x20 * n)) 15 0) ∧
                (selected 0 → ∀ l, t.lane l = { s.lane l with st := .off, synth := false, loopKind := 0 }) ∧
                (¬ selected 0 → t.lanes = s.lanes) ∧
                ({ t with gh := s.gh, bist := s.bist, lanes := s.lanes, regs := s.regs, tick := s.tick } : State) = s)))))) ∧
    (s.runs 0x51 h [sel, form] = true →
      let count := [0, 128, 16, 64, 272, 144, 1, 128].getD kind 0
      let inRange := count ≠ 0 ∧ fld sel 23 16 = 0 ∧ form.toNat ≤ 1 ∧ ((idx = 0xFFFF ∧ kind ≠ 6) ∨ idx < count)
      let units := if idx = 0xFFFF then List.range count else [idx]
      let reached := ∀ n, n ∈ units → s.domainOn (State.marchDomain kind n) = true ∧ s.fenced (State.marchDomain kind n) = false
      (¬ inRange → s.replies (.marchRun h sel form) 0x51 h 2 2 [] (fun t => s.onlyGatehouse t)) ∧
      (inRange → s.selfTest = true → s.replies (.marchRun h sel form) 0x51 h 2 0x30 [] (fun t => s.onlyGatehouse t)) ∧
      (inRange → s.selfTest = false → (∃ n, n ∈ units ∧ s.domainOn (State.marchDomain kind n) = false) →
        s.replies (.marchRun h sel form) 0x51 h 2 7 [] (fun t => s.onlyGatehouse t)) ∧
      (inRange → s.selfTest = false → (∀ n, n ∈ units → s.domainOn (State.marchDomain kind n) = true) →
        (∃ n, n ∈ units ∧ s.fenced (State.marchDomain kind n) = true) →
        s.replies (.marchRun h sel form) 0x51 h 2 0x1C [] (fun t => s.onlyGatehouse t)) ∧
      (inRange → s.selfTest = false → reached →
        let quiet := form = 0 → ∀ n, n ∈ units → s.marchQuiet kind n = true
        let planes := kind = 7 → ∀ n, n ∈ units → (s.terr n).stagingShadow = false ∧ (s.terr n).shadowOk = false ∧
          s.switchNear n = false
        (¬ (quiet ∧ planes) → s.replies (.marchRun h sel form) 0x51 h 2 0x30 [] (fun t => s.onlyGatehouse t)) ∧
        (quiet → planes → s.replies (.marchRun h sel form) 0x51 h 0 0 [] (fun t =>
          t.bist = { s.bist with march := some (sel, form) } ∧ bit (t.reg 0xE00200) 31 = false ∧
          s.onlyGhRegs { t with bist := s.bist } [0xE00200])))) ∧
    (s.runs 0x53 h [sel] = true →
      (∀ n, n < 6 → sel.toNat = n →
        (n ∈ s.bist.setsLeft → s.replies (.signatureRead h sel) 0x53 h 2 0x30 [] (fun t => s.onlyGatehouse t)) ∧
        (n ∉ s.bist.setsLeft → n ∉ s.bist.setsRun →
          s.replies (.signatureRead h sel) 0x53 h 2 2 [] (fun t => s.onlyGatehouse t)) ∧
        (n ∉ s.bist.setsLeft → n ∈ s.bist.setsRun →
          (bit (s.reg (0xE00100 + 0x20 * n)) 30 = false → s.replies (.signatureRead h sel) 0x53 h 0 0
            (words (0xE00100 + 0x20 * n)) (fun t => s.onlyGatehouse t)) ∧
          (bit (s.reg (0xE00100 + 0x20 * n)) 30 = true → s.replies (.signatureRead h sel) 0x53 h 3 0x41
            (words (0xE00100 + 0x20 * n)) (fun t => s.onlyGatehouse t)))) ∧
      (sel = 0x01000000 → s.bist.march = none → s.bist.marchRun = true →
        (bit (s.reg 0xE00200) 30 = false →
          s.replies (.signatureRead h sel) 0x53 h 0 0 (words 0xE00200) (fun t => s.onlyGatehouse t)) ∧
        (bit (s.reg 0xE00200) 30 = true →
          s.replies (.signatureRead h sel) 0x53 h 3 0x42 (words 0xE00200) (fun t => s.onlyGatehouse t))) ∧
      (6 ≤ sel.toNat → sel ≠ 0x01000000 →
        s.replies (.signatureRead h sel) 0x53 h 2 2 [] (fun t => s.onlyGatehouse t))) ∧
    (s.runs 0x52 h [trigger, cairn] = true →
      let targets := (List.range 128).filter (fun t0 => (s.terr t0).configured && s.domainOn (terraceId t0))
      let busy := s.cap.armed = true ∨ s.cap.taking = true
      (1 < trigger.toNat ∨ (trigger = 1 ∧ 4095 < k) →
        s.replies (.capture h trigger cairn) 0x52 h 2 2 [] (fun t => s.onlyGatehouse t)) ∧
      (trigger.toNat ≤ 1 → (trigger = 1 → k ≤ 4095) → busy →
        s.replies (.capture h trigger cairn) 0x52 h 2 0x30 [] (fun t => s.onlyGatehouse t)) ∧
      (trigger = 0 → ¬ busy → s.replies (.capture h trigger cairn) 0x52 h 0 0 [] (fun t =>
        t.cap = { s.cap with done := false, snaps := [], lines := [], repaired := [], taking := true, targets := targets,
                             position := (s.tb.fp + 1049) % (2 ^ 32 * 16000 * 65536) } ∧
        ({ t with gh := s.gh, cap := s.cap, tick := s.tick } : State) = s)) ∧
      (trigger = 1 → k ≤ 4095 → ¬ busy → s.cairnBad k = true →
        s.replies (.capture h trigger cairn) 0x52 h 3 3 [] (fun t => (t.cairn k).free = true)) ∧
      (trigger = 1 → k ≤ 4095 → ¬ busy → s.weak = [] →
        (c.kind ≠ 8 ∨ c.bound = true →
          s.replies (.capture h trigger cairn) 0x52 h 2 2 [] (fun t => s.onlyGatehouse t)) ∧
        (c.kind = 8 → c.bound = false → c.committed = true ∨ reached s.tb.fp c.pos = true →
          s.replies (.capture h trigger cairn) 0x52 h 2 0x21 [] (fun t => s.onlyGatehouse t)) ∧
        (c.kind = 8 → c.bound = false → c.committed = false → reached s.tb.fp c.pos = false →
          s.replies (.capture h trigger cairn) 0x52 h 0 0 [] (fun t =>
            t.cap = { s.cap with done := false, snaps := [], lines := [], repaired := [], armed := true, cairn := k, targets := targets } ∧
            (t.cairn k).bound = true ∧ (t.cairn k).act = c.act ∧ (∀ j, j ≠ k → t.cairn j = s.cairn j) ∧
            ({ t with gh := s.gh, cap := s.cap, cairns := s.cairns, tick := s.tick } : State) = s))))) ∧
  (∀ (s : State) (dt : Nat) (sig : List Word) (faults : List (Nat × Nat × CellFault)),
    let s' := s.advance dt
    let at4 := fun (t : State) (a : Nat) (ws : List Word) (err : Bool) =>
      bit (t.reg a) 31 = true ∧ bit (t.reg a) 30 = err ∧
      fld (t.reg a) 15 0 = (fld (s'.reg a) 15 0 + 1) % 65536 ∧
      t.reg (a + 4) = ws.getD 0 0 ∧ t.reg (a + 8) = ws.getD 1 0 ∧ t.reg (a + 12) = ws.getD 2 0 ∧ t.reg (a + 16) = ws.getD 3 0
    s'.live = true →
    (s'.bist.setsLeft = [] → exec (.bistSetEnd sig dt) s = .next s') ∧
    (∀ n rest, s'.bist.setsLeft = n :: rest → n < 6 → sig.length = 4 → s.completes (.bistSetEnd sig dt) (fun t =>
      at4 t (0xE00100 + 0x20 * n) sig (decide (sig ≠ Config.bistExpected n)) ∧ t.bist.setsLeft = rest ∧
      n ∈ t.bist.setsRun ∧ (∀ j, j ∈ s'.bist.setsRun → j ∈ t.bist.setsRun) ∧ t.mode = s'.mode ∧
      (n = 0 → ∀ j, j < 144 → t.chan j = {} ∧ t.lane j = {}) ∧
      (n = 2 → ∀ j, j < 64 → t.eng j = { runTime := (s'.eng j).runTime, idleTime := (s'.eng j).idleTime }) ∧ (n = 3 → ∀ j, j < 16 → t.dr j = {}) ∧
      (n = 4 → ∀ j, j < 128 → t.terr j = {}) ∧ (n = 5 → ∀ j, j < 272 → t.cis j = {}))) ∧
    (s'.bist.march = none → exec (.marchEnd faults dt) s = .next s') ∧
    (∀ sel form, s'.bist.march = some (sel, form) → form.toNat ≤ 1 →
      let kind := fld sel 31 24
      let units := State.marchUnits sel
      -- every word of a marched unit with a faulty cell fails, once, in the order of the units and of their words
      let failing := fun (fails : List Nat) => fails.Pairwise (· < ·) ∧
        ∀ x, x ∈ fails ↔ ∃ f, f ∈ faults ∧ f.1 ∈ units ∧ f.2.1 < State.marchWords kind f.1 ∧ x = f.1 * 2 ^ 22 + f.2.1
      s.completes (.marchEnd faults dt) (fun t =>
        (∀ fails, failing fails → fails.length < 2 ^ 32 → at4 t 0xE00200 [BitVec.ofNat 32 fails.length,
          (fails.head?.map (BitVec.ofNat 32)).getD 0xFFFFFFFF, (fails.getLast?.map (BitVec.ofNat 32)).getD 0xFFFFFFFF,
          BitVec.ofNat 32 (kind * 2 ^ 24 + form.toNat * 2 ^ 16 + fld sel 15 0)] (decide (fails ≠ []))) ∧
        t.bist = { s'.bist with march := none, marchRun := true } ∧
        (form = 1 → t.bram = s'.bram ∧ t.spad = s'.spad ∧ t.cisterns = s'.cisterns ∧ t.dsp = s'.dsp ∧
          t.terraces = s'.terraces) ∧
        (form = 0 → kind = 4 → fld sel 15 0 < 272 → t.cis (fld sel 15 0) = {}) ∧
        (form = 0 → kind = 6 → t.cairns = [] ∧ t.dsp.threads = [] ∧ t.dsp.flows = []) ∧
        (form = 0 → kind = 7 → fld sel 15 0 < 128 → (t.terr (fld sel 15 0)).shadow = [] ∧
          (t.terr (fld sel 15 0)).shadowSrc = 15))) ∧
    (∀ es last,
      (s'.cap.taking = true → reached s'.tb.fp s'.cap.position = true → last = true → (∀ x, x ∈ es → x ∈ s'.cap.lines) →
        (∀ t0 l, t0 ∈ s'.cap.targets → l < 4 → s'.lineRuns t0 l = true → (t0, l) ∈ s'.cap.fixed) →
        s.completes (.captureSnapshot es last dt) (fun t => t.cap.done = true ∧ t.cap.taking = false ∧
        t.cap.lines = s'.cap.lines ∧
        (∀ t0 k, t0 ∈ s'.cap.targets → k < 65536 → (t.cap.snapOf t0).ff.getLsbD k =
          if (t0, s'.lineOf t0 (.bay (k / 128))) ∈ s'.cap.fixed then (s'.cap.snapOf t0).ff.getLsbD k
          else (s'.user t0).ff.getLsbD k) ∧
        (∀ t0 n, t0 ∈ s'.cap.targets → n < 48 → (t.cap.snapOf t0).slices.getD n FabricCell.Slice.zero =
          if (t0, s'.lineOf t0 (.slice n)) ∈ s'.cap.fixed then (s'.cap.snapOf t0).slices.getD n FabricCell.Slice.zero
          else (s'.user t0).slice n) ∧
        ({ t with cap := s'.cap, trace := s'.trace, tick := s'.tick } : State) = s')) ∧
      (s'.cap.taking = false ∨ reached s'.tb.fp s'.cap.position = false ∨ last = false ∨
        (∃ x, x ∈ es ∧ x ∉ s'.cap.lines) ∨
        (∃ t0 l, t0 ∈ s'.cap.targets ∧ l < 4 ∧ s'.lineRuns t0 l = true ∧ (t0, l) ∉ s'.cap.fixed) →
        exec (.captureSnapshot es last dt) s = .next s'))) ∧
  -- at an edge from the position on, a line that has not captured yet takes what its flip-flops hold after it
  (∀ (s : State) (e : List Nat) (t l k : Nat), s.cap.taking = true → reached s.tb.fp s.cap.position = true →
    t ∈ s.cap.targets → (t, l) ∉ s.cap.fixed → l ∈ s.linesUp t e → s.cap.begun = true ∨ s.lineRuns t l = true →
    let u := s.fabricEdge e
    (t, l) ∈ u.cap.lines ∧ (t, l) ∈ u.cap.fixed ∧
    (k < 65536 → u.lineOf t (.bay (k / 128)) = l → (u.cap.snapOf t).ff.getLsbD k = (u.user t).ff.getLsbD k) ∧
    (k < 48 → u.lineOf t (.slice k) = l →
      (u.cap.snapOf t).slices.getD k FabricCell.Slice.zero = (u.user t).slice k))

/-- R344-R347, R488, R538. -/
def Obligations.EngineCommands : Prop :=
  ∀ (s : State) (h : Hdr) (engine offset : Word) (words : List Word),
    let e := engine.toNat
    let o := offset.toNat
    let p := pavilionId (e / 8)
    let x := s.eng e
    let tracing := bit (s.reg 0xE80000) 0 = true ∧ fld (s.reg 0xE80000) 15 10 = e
    let bytes := words.flatMap wordBytes
    let base := e * 262144 + o
    (s.runs 0x48 h (engine :: offset :: words) = true →
      (63 < e ∨ o % 4 ≠ 0 → s.replies (.engineLoad h engine offset words) 0x48 h 2 2 [] (fun t => s.onlyGatehouse t)) ∧
      (e ≤ 63 → o % 4 = 0 →
        (262144 < o + 4 * words.length →
          s.replies (.engineLoad h engine offset words) 0x48 h 2 0x20 [] (fun t => s.onlyGatehouse t)) ∧
        (o + 4 * words.length ≤ 262144 →
          (x.st ≠ .stopped ∨ tracing →
            s.replies (.engineLoad h engine offset words) 0x48 h 2 0x30 [] (fun t => s.onlyGatehouse t)) ∧
          (x.st = .stopped → ¬ tracing → s.gateOpen p = false →
            s.replies (.engineLoad h engine offset words) 0x48 h 2 7 [] (fun t => s.onlyGatehouse t)) ∧
          (x.st = .stopped → ¬ tracing → s.gateOpen p = true →
            ((∀ k, Table.get (fun _ => false) s.spadBad k = false) →
              s.replies (.engineLoad h engine offset words) 0x48 h 0 0 [] (fun t =>
                (∀ k, Table.get (fun _ => 0) t.spad k =
                  if base ≤ k ∧ k < base + bytes.length then bytes.getD (k - base) 0
                  else Table.get (fun _ => 0) s.spad k) ∧
                t.eng e = { x with reservation := none } ∧ (∀ f, f ≠ e → t.eng f = s.eng f) ∧
                (∀ k, Table.get (fun _ => false) t.spadBad k = false) ∧ (s.weak = [] → t.weak = []) ∧
                ({ t with gh := s.gh, spad := s.spad, spadBad := s.spadBad, weak := s.weak, engines := s.engines,
                          tick := s.tick } : State) = s)) ∧
            (∀ w, words = [w] → s.spadBadAt e o = true →
              s.replies (.engineLoad h engine offset words) 0x48 h 3 3 [] (fun t => t.spad = s.spad ∧
                t.spadBad = s.spadBad ∧ s.logs t 2 (engineId e) offset)) ∧
            (∀ w v, words = [w, v] → o % 8 = 0 → s.spadBadAt e o = true →
              s.replies (.engineLoad h engine offset words) 0x48 h 0 0 [] (fun t => t.spadBadAt e o = false)))))) ∧
    (s.runs 0x49 h [engine, offset] = true →
      (63 < e ∨ o % 4 ≠ 0 ∨ 0x40000 ≤ o →
        s.replies (.engineStart h engine offset) 0x49 h 2 2 [] (fun t => s.onlyGatehouse t)) ∧
      (e ≤ 63 → o % 4 = 0 → o < 0x40000 →
        (s.gateOpen p = false → s.replies (.engineStart h engine offset) 0x49 h 2 7 [] (fun t => s.onlyGatehouse t)) ∧
        (s.gateOpen p = true →
          ((s.pll 14).lock = false →
            s.replies (.engineStart h engine offset) 0x49 h 2 0x11 [] (fun t => s.onlyGatehouse t)) ∧
          ((s.pll 14).lock = true →
            (x.st ≠ .stopped ∨ tracing →
              s.replies (.engineStart h engine offset) 0x49 h 2 0x30 [] (fun t => s.onlyGatehouse t)) ∧
            (x.st = .stopped → ¬ tracing → s.replies (.engineStart h engine offset) 0x49 h 0 0 [] (fun t =>
              (t.eng e).st = .run ∧ (t.eng e).bank = false ∧ (t.eng e).ctx = { pc := o } ∧ (t.eng e).tvalid = false ∧
              (t.eng e).handler = false ∧ (t.eng e).wait = none ∧ (t.eng e).staged = none ∧
              (t.eng e).wdog = s.wdogFull e ∧ (t.eng e).epc = x.epc ∧ (t.eng e).dbg = x.dbg ∧
              (∀ r, (t.eng e).g r = 0) ∧ (∀ f, f ≠ e → t.eng f = s.eng f) ∧
              ({ t with gh := s.gh, engines := s.engines, tick := s.tick } : State) = s)))))) ∧
    (s.runs 0x4A h [engine] = true →
      (63 < e → s.replies (.engineStop h engine) 0x4A h 2 2 [] (fun t => s.onlyGatehouse t)) ∧
      (e ≤ 63 →
        (x.st = .stopped → s.replies (.engineStop h engine) 0x4A h 0 0 [w32 x.ctx.pc] (fun t => s.onlyGatehouse t)) ∧
        (x.st ≠ .stopped → x.wait = none → s.replies (.engineStop h engine) 0x4A h 0 0
            [if x.st = .fault then s.reg (aEng e + 0x14) else w32 x.ctx.pc] (fun t =>
          (t.eng e).st = .stopped ∧ (t.eng e).tvalid = false ∧ (t.eng e).reservation = none ∧ (t.eng e).staged = none ∧
          (∀ f, f ≠ e → t.eng f = s.eng f) ∧ t.spad = s.spad ∧ t.mode = s.mode ∧
          (x.tvalid = false → x.staged = none → t.dsp = s.dsp))) ∧
        (x.st ≠ .stopped → x.wait ≠ none → s.completes (.engineStop h engine) (fun t =>
          (t.eng e).stopPending = true ∧ (t.eng e).st = x.st ∧ (t.eng e).wait = x.wait ∧
          (∀ f, f ≠ e → t.eng f = s.eng f) ∧ (∃ r, t.gh.running = some r ∧ r.op = 0x4A ∧ r.hdr = h ∧ r.begun = true) ∧
          ({ t with gh := s.gh, engines := s.engines, tick := s.tick } : State) = s))))

/-- R530-R541. That a peek of a place other than a fabric window ends at once is the model's choice (timing). -/
def Obligations.DebugSessions : Prop :=
  (∀ (s : State) (who : Accessor) (w k : Nat) (value : Word), Accessor.ok who = true → w < 2 → k < 32 →
    let e := 32 * w + k
    let x := s.eng e
    let sel := bit value k = true ∧ s.attached e = true
    (s.mayAccess who true (0xE80108 + 4 * w) = true → bit (s.reg 0xE80080) 0 = false →
      s.completes (.blvHalt who w value) (fun t =>
        (sel → x.st = .run ∨ x.st = .idle → x.wait = none → (t.eng e).st = .monitor ∧ (t.eng e).reservation = none ∧
          (t.eng e).dbg.evtCause = 0 ∧ (t.eng e).ctx = x.ctx ∧ (t.eng e).tvalid = x.tvalid) ∧
        (sel → x.st = .run ∨ x.st = .idle → x.wait ≠ none →
          t.eng e = { x with dbg := { x.dbg with haltPending := true } }) ∧
        (bit value k = false ∨ s.attached e = false ∨ x.st = .monitor ∨ x.st = .stopped ∨ x.st = .fault →
          t.eng e = x) ∧
        (∀ f, f / 32 ≠ w → t.eng f = s.eng f) ∧ t.regs = s.regs ∧ t.spad = s.spad)) ∧
    (s.mayAccess who true (0xE80118 + 4 * w) = true → s.completes (.blvResume who w value) (fun t =>
      (sel → x.st = .monitor → x.tvalid = true → t.eng e = { x with
        st := .run, wdog := s.wdogFull e, dbg := { x.dbg with skip := true, watchHit := none } }) ∧
      (sel → x.st = .monitor → x.tvalid = false → x.stagedReady = false → t.eng e = { x with
        st := .idle, wdog := s.wdogFull e, dbg := { x.dbg with skip := true, watchHit := none } }) ∧
      (bit value k = false ∨ s.attached e = false ∨ x.st ≠ .monitor → t.eng e = x) ∧
      (∀ f, f / 32 ≠ w → t.eng f = s.eng f) ∧ t.regs = s.regs ∧ t.spad = s.spad)) ∧
    (s.mayAccess who true (0xE80110 + 4 * w) = true →
      ((∀ j, j < 32 → bit value j = true → s.attached (32 * w + j) = false ∨ (s.eng (32 * w + j)).st ≠ .monitor) →
        s.completes (.blvStep who w value) (fun t => ({ t with tick := s.tick } : State) = s)) ∧
      (∀ i, (∀ j, j < 32 → (bit value j = true ↔ j = k)) → s.attached e = true → x.st = .monitor → x.ctx.pc < 0x40000 →
        x.ctx.pc % 4 = 0 → s.spadBadAt e x.ctx.pc = false → decodeEngine e (s.codeWord e x.ctx.pc) = some i →
        s.completes (.blvStep who w value) (fun t =>
          (∃ u, exec i (s.setEng e { x with
              st := .run, wdog := s.wdogFull e, dbg := { x.dbg with stepping := true, skip := true, watchHit := none } }) =
            .next u ∧ ({ t with tick := u.tick } : State) = u) ∧
          ∀ rd ra imm, i = .addi e rd ra imm → s.domainOn (pavilionId (e / 8)) = true →
            s.gateOpen (pavilionId (e / 8)) = true → s.pllOut 14 0 = true → x.wait = none → x.stopPending = false →
            bit (s.reg 0xE80080) 0 = false →
            (t.eng e).st = .monitor ∧ (t.eng e).dbg.evtCause = 4 ∧ (t.eng e).dbg.stepping = false ∧
            (t.eng e).ctx = ((x.setG rd (x.g ra + imm.signExtend 32)).advance).ctx ∧
            (∀ f, f ≠ e → t.eng f = s.eng f) ∧ t.spad = s.spad))) ∧
    (s.mayAccess who true (0xE80100 + 4 * w) = true → s.completes (.blvAttachWrite who w value) (fun t =>
      t.reg (0xE80100 + 4 * w) = value ∧ (∀ a, a ≠ 0xE80100 + 4 * w → t.reg a = s.reg a) ∧
      (s.attached e = true → bit value k = false → x.st = .monitor → x.tvalid = true → (t.eng e).st = .run ∧
        (t.eng e).ctx = x.ctx) ∧
      (bit value k = true ∨ s.attached e = false → t.eng e = x) ∧
      (s.attached e = true → bit value k = false → x.st ≠ .monitor →
        t.eng e = { x with dbg := { x.dbg with haltPending := false, stepping := false } }))) ∧
    (s.mayAccess who true 0xE80060 = true → s.completes (.blvStimWrite who value) (fun t =>
      t.reg 0xE80060 = value ∧ s.onlyRegs t [0xE80060])) ∧
    (s.mayAccess who true 0xE80044 = true →
      let a := (s.reg 0xE80040).toNat
      -- the request is in the register, VALID clear
      let asked := fun (v : Word) =>
        (s.setReg 0xE80044 (s.reg 0xE80044 ||| v)).setReg 0xE80048 (s.reg 0xE80048 &&& 0x3FFFFFFF)
      let ends := fun (u t : State) (data : Word) (reason : Byte) =>
        u.onlyRegs { t with rw := u.rw } [0xE80044, 0xE80048, 0xE8004C, 0xE80050] ∧ t.reg 0xE80044 = 0 ∧ t.reg 0xE8004C = data ∧
        t.reg 0xE80050 = BitVec.ofNat 32 reason.toNat ∧ bit (t.reg 0xE80048) 31 = true ∧
        bit (t.reg 0xE80048) 30 = decide (reason ≠ 0)
      (bit (s.reg 0xE80044) 0 = true →
        s.completes (.peek who) (fun t => ({ t with tick := s.tick } : State) = s) ∧
        s.completes (.consumingRead who) (fun t => ({ t with tick := s.tick } : State) = s)) ∧
      (bit (s.reg 0xE80044) 0 = false →
        (placeOf a = none → s.completes (.peek who) (fun t => ends s t 0 8 ∧ t.rw = s.rw) ∧
          s.completes (.consumingRead who) (fun t => ends s t 0 8 ∧ t.rw = s.rw)) ∧
        (∀ p o, placeOf a = some (p, o) →
          let sent := fun (v : Word) => (asked v).hubSent 0x205 (portOf p)
          let counted := fun (t : State) => (t.stats 0x205).requests = min (2 ^ 32 - 1) ((s.stats 0x205).requests + 1)
          ((asked 1).accessError 0x205 p o ≠ 0 → s.completes (.peek who) (fun t =>
              ends s t 0 ((asked 1).accessError 0x205 p o) ∧ counted t)) ∧
          ((asked 3).accessError 0x205 p o ≠ 0 → s.completes (.consumingRead who) (fun t =>
              ends s t 0 ((asked 3).accessError 0x205 p o) ∧ counted t)) ∧
          ((asked 1).accessError 0x205 p o = 0 → (sent 1).storedBad p o = false → (∀ t0, p ≠ .window t0) →
            bit (s.reg 0xE80044) 1 = false → s.completes (.peek who) (fun t => ends s t ((sent 1).peek a) 0 ∧ counted t)) ∧
          ((asked 3).accessError 0x205 p o = 0 → (sent 3).storedBad p o = false → (∀ t0, p ≠ .window t0) →
            s.completes (.consumingRead who) (fun t =>
              ends ((sent 3).readWord a).2 t ((sent 3).readWord a).1 0)))))) ∧
  (∀ (s : State) (who : Accessor) (value : Word), Accessor.ok who = true → s.mayAccess who true 0xE80000 = true →
    let e := fld value 15 10
    bit (s.reg 0xE80000) 0 = false →
    ((s.eng e).st = .stopped → s.domainOn (pavilionId (e / 8)) = true → fld value 31 16 ≤ 16383 →
      s.completes (.traceEnable who value) (fun t => t.trace = { run := true, made := [
          ⟨0, 0, 0, BitVec.ofNat 32 (s.tb.fp % (16000 * 65536)), BitVec.ofNat 32 (s.tb.fp / (16000 * 65536)),
            BitVec.ofNat 32 (s.tb.devTime / (10 ^ 9 * 2 ^ 40))⟩] } ∧
        t.reg 0xE80000 = (value ||| 1) &&& 0xFFFFFFC1 ∧ bit (t.reg 0xE80004) 30 = true ∧
        s.onlyRegs { t with trace := s.trace } [0xE80000, 0xE80004])) ∧
    ((s.eng e).st ≠ .stopped → s.completes (.traceEnable who value) (fun t => s.onlyRegs t [0xE80004] ∧
      fld (t.reg 0xE80004) 23 16 = 0x30 ∧ bit (t.reg 0xE80004) 30 = false)) ∧
    ((s.eng e).st = .stopped → s.domainOn (pavilionId (e / 8)) = false → s.completes (.traceEnable who value) (fun t =>
      s.onlyRegs t [0xE80004] ∧ fld (t.reg 0xE80004) 23 16 = 7))) ∧
  (∀ (s : State) (cls src kind dt : Nat) (d0 d1 : Word), State.traceSource cls src = true →
    let s' := s.advance dt
    let n := s'.trace.next
    let base := fld (s'.reg 0xE80000) 15 10 * 262144 + 16 * n
    let lost := Table.get (fun _ => 0) s'.trace.lost cls
    let here := BitVec.ofNat 32 (s'.tb.fp % (16000 * 65536))
    let found := if cls = 5 then (if s'.traceTakes 5 src = true then some (⟨5, src, kind, here, d0, d1⟩ : TracePkt) else none)
      else s'.trace.made.find? (fun p => decide (p.cls = cls ∧ p.src = src ∧ p.kind = kind ∧ p.d0 = d0 ∧ p.d1 = d1))
    let words := fun (at_ : Word) => ([BitVec.ofNat 32 (2 ^ 31 + cls * 2 ^ 28 + src * 2 ^ 16 + kind % 256 * 256 + Min.min 255 lost),
      at_, d0, d1] : List Word)
    let queued := if s'.trace.clock = s'.now then Table.get (fun _ => 0) s'.trace.queued cls else 0
    let circular := bit (s'.reg 0xE80000) 6 = true
    s'.live = true →
    (found = none → exec (.tracePacket cls src kind d0 d1 dt) s = .next s') ∧
    (∀ p, found = some p → s'.trace.run = false → s.completes (.tracePacket cls src kind d0 d1 dt) (fun t =>
      t.spad = s'.spad ∧ t.trace.run = false ∧ t.trace.next = n)) ∧
    (∀ p, found = some p → s'.trace.run = true →
      (queued < 8 → n ≤ 16383 → s.completes (.tracePacket cls src kind d0 d1 dt) (fun t =>
        (∀ j, j < 16 → Table.get (fun _ => 0) t.spad (base + j) = ((words p.at_).flatMap wordBytes).getD j 0) ∧
        (∀ b, b < base ∨ base + 16 ≤ b → Table.get (fun _ => 0) t.spad b = Table.get (fun _ => 0) s'.spad b) ∧
        Table.get (fun _ => 0) t.trace.lost cls = 0 ∧ t.regs = s'.regs ∧
        t.trace.made = (if cls = 5 then s'.trace.made else s'.trace.made.erase p) ∧
        (n < 16383 → t.trace.next = n + 1 ∧ t.trace.run = !(s'.trace.triggered && decide (s'.trace.left ≤ 1))) ∧
        (n = 16383 → ¬ circular → t.trace.run = false) ∧
        (n = 16383 → circular → t.trace.next = 0 ∧ t.trace.wrapped = true))) ∧
      (8 ≤ queued → s.completes (.tracePacket cls src kind d0 d1 dt) (fun t => t.spad = s'.spad ∧
        t.trace.next = n ∧ t.trace.run = true ∧ Table.get (fun _ => 0) t.trace.lost cls = Min.min 255 (lost + 1) ∧
        ({ t with trace := s'.trace, tick := s'.tick } : State) = s')))) ∧
  (∀ (s : State) (v : Nat) (info : Word), s.weak = [] → s.trace.run = true → bit (s.reg 0xE8000C) 2 = true →
    (s.decidePost v info).2.trace.made = s.trace.made ++ [⟨2, 0, if (s.decidePost v info).1 = true then 0x10 else 0x11,
      BitVec.ofNat 32 (s.tb.fp % (16000 * 65536)), BitVec.ofNat 32 v, info⟩])

/-- R542-R553. -/
def Obligations.MonitorAndBoundaryScan : Prop :=
  (∀ (s : State) (who : Accessor) (value : Word), Accessor.ok who = true → s.mayAccess who true 0xF00000 = true → s.firesFirst 0xF00000 = [] →
    let sound := (∀ i, monValid i = true → s.monEnIn i = true → s.monConsec i ≠ 0) ∧ s.monOver 0 = false ∧
      s.monOver 1 = false
    (bit (s.reg 0xF00000) 0 = true → exec (.monitorEnable who value) s = .next s) ∧
    (bit (s.reg 0xF00000) 0 = false →
      (sound → s.completes (.monitorEnable who value) (fun t => t.reg 0xF00000 = 1 ∧ bit (t.reg 0xF00004) 30 = true ∧
        (∀ i, monValid i = true → t.monIn i = { s.monIn i with nextDue := s.now }) ∧
        s.onlyRegs { t with mon := s.mon } [0xF00000, 0xF00004])) ∧
      (¬ sound → s.completes (.monitorEnable who value) (fun t => s.onlyRegs t [0xF00004] ∧
        bit (t.reg 0xF00004) 30 = false ∧ fld (t.reg 0xF00004) 23 16 = 2)))) ∧
  (∀ (s : State) (i dt : Nat), monValid i = true →
    let s' := s.advance dt
    let x := s'.monIn i
    let a := 0xF02000 + 0x20 * i
    let due := s'.mon.adcOn = true ∧ s'.monEn = true ∧ s'.monEnIn i = true ∧ s'.monPeriod i ≠ 0 ∧ x.nextDue ≤ s'.now
    let first := ∀ j, monValid j = true → j < i → monAdc j = monAdc i → s'.monDue j = false
    let outside := fun (m : Nat) => s'.monHi i < m ∨ m < s'.monLo i
    -- the result block after a result with code m
    let result := fun (t : State) (sample : Bool) (m n : Nat) =>
      bit (t.reg a) 31 = true ∧ bit (t.reg a) 30 = s'.adcBad (monAdc i) ∧
      fld (t.reg a) 15 0 = (fld (s'.reg a) 15 0 + 1) % 65536 ∧
      (t.reg (a + 4)).toNat = (if sample then 2 ^ 31 else 0) + (if s'.monHi i < m ∨ m < s'.monLo i then 2 ^ 30 else 0) + m ∧
      (s'.tbOn = false → ∀ k, 2 ≤ k → k ≤ 6 → t.reg (a + 4 * k) = 0) ∧
      (s'.tbOn = true → t.reg (a + 16) = BitVec.ofNat 32 (timeForm (s'.tb.devTime - n * s'.tb.addend)).toNat) ∧
      (outside m → (t.monIn i).outRun = x.outRun + 1) ∧ (¬ outside m → (t.monIn i).outRun = 0) ∧
      (outside m → x.alarm = false → s'.monConsec i ≤ x.outRun + 1 → (t.monIn i).alarm = true ∧
        bit (t.reg (0xF0000C + 4 * (i / 32))) (i % 32) = true ∧ s'.logs t 0x70 0xB (BitVec.ofNat 32 i)) ∧
      (outside m → x.alarm = true ∨ x.outRun + 1 < s'.monConsec i → (t.monIn i).alarm = x.alarm ∧ t.log = s'.log) ∧
      (x.alarm = true → s'.monLo i + 8 ≤ m → m + 8 ≤ s'.monHi i → (t.monIn i).alarm = false ∧
        s'.logs t 0x71 0xB (BitVec.ofNat 32 i))
    s'.live = true →
    (due → first → x.busy = false → s.completes (.scanRound i dt) (fun t =>
      t.monIn i = { x with nextDue := x.nextDue + s'.monPeriod i * 1000000, busy := true, since := max s'.now (s'.adcTaken (monAdc i)) } ∧
      bit (t.reg a) 31 = false ∧ s'.onlyRegs { t with mon := s'.mon } [a])) ∧
    (due → first → x.busy = true → s.completes (.scanRound i dt) (fun t =>
      t.monIn i = { x with nextDue := x.nextDue + s'.monPeriod i * 1000000 } ∧
      bit (t.reg 0xF00008) 30 = true ∧ s'.onlyRegs { t with mon := s'.mon } [0xF00008])) ∧
    (¬ (due ∧ first) → exec (.scanRound i dt) s = .next s') ∧
    (∀ codes, codes.length = 2 ^ s'.monAvg i → (∀ c, c ∈ codes → c ≤ 4095) → x.busy = true →
      x.since + 500000 * 2 ^ s'.monAvg i ≤ s'.now →
      s.completes (.conversionResult i false codes dt) (fun t => (t.monIn i).busy = false ∧
        result t false ((2 * codes.foldl (· + ·) 0 + codes.length) / (2 * codes.length)) 125)) ∧
    (∀ c start more, c ≤ 4095 → x.samples = start :: more →
      (start + 500000 ≤ s'.now → s.completes (.conversionResult i true [c] dt) (fun t =>
        (t.monIn i).samples = more ∧ result t true c ((s'.now - (start + 250000)) / 2000))) ∧
      (s'.now < start + 500000 → exec (.conversionResult i true [c] dt) s = .next s')) ∧
    (∀ codes, x.busy = false ∨ s'.now < x.since + 500000 * 2 ^ s'.monAvg i →
      exec (.conversionResult i false codes dt) s = .next s') ∧
    (∀ codes, x.samples = [] → exec (.conversionResult i true codes dt) s = .next s')) ∧
  (∀ (s : State) (adc code dt : Nat) (good : Bool) (codes : List Nat), adc < 2 →
    let s' := s.advance dt
    let trip := fld (s'.reg 0xF00014) 11 0
    let hot := fun (k : Nat) => if trip ≤ codes.getD k 0 then Min.min 8 ((s'.sensor k).hotRun + 1) else 0
    s'.live = true →
    (s'.mon.adcOn = true → s'.refDue adc ≤ s'.now → s.completes (.referenceConversion adc code good dt) (fun t =>
      t.adcBad adc = !good ∧ t.refDue adc = s'.refDue adc + 10 ^ 10 ∧ t.refDue (1 - adc) = s'.refDue (1 - adc) ∧
      t.adcBad (1 - adc) = s'.adcBad (1 - adc) ∧ (good = true → { t with mon := s'.mon } = s') ∧
      (good = false → s'.logs t 0x74 0xB (BitVec.ofNat 32 adc)))) ∧
    (s'.mon.adcOn = false ∨ s'.now < s'.refDue adc → exec (.referenceConversion adc code good dt) s = .next s') ∧
    (s'.mon.adcOn = false ∨ s'.now < s'.mon.dieDue → exec (.dieSensorConversion codes dt) s = .next s') ∧
    (s'.mon.adcOn = true → codes.length = 16 → s'.mon.dieDue ≤ s'.now → s.completes (.dieSensorConversion codes dt) (fun t =>
      t.mode = s'.mode ∧ t.mon.dieDue = s'.mon.dieDue + 10 ^ 8 ∧ (∀ k, k < 16 → (t.sensor k).hotRun = hot k) ∧
      (∀ k, k < 16 → hot k = 8 → t.mon.trip = true) ∧
      (∀ k, k < 16 → hot k = 8 → (∀ j, j < k → hot j ≠ 8) → s'.mon.trip = false → s'.logs t 0x72 0xB (BitVec.ofNat 32 k)) ∧
      ((∀ k, k < 16 → hot k ≠ 8) → s'.mon.trip = false → t.mon.trip = false ∧ { t with mon := s'.mon } = s')))) ∧
  (∀ (s : State) (drive : List Bool) (code : Byte),
    let acts := s.mode = .boot ∧ s.boot.base = none
    let selects := fun (i : Instr) (c : Byte) (driving highz : Bool) (boundary : List Bool) =>
      (acts → exec i s = .next { s with jtag := { s.jtag with
        ir := c, driving := driving, highz := highz, boundary := boundary, dr := 0 } }) ∧
      (¬ acts → exec i s = .next { s with jtag := { s.jtag with ir := c, driving := false, highz := false, dr := 0 } })
    selects (.extest drive) 0x00 true false drive ∧ selects (.extestPulse drive) 0x08 true false drive ∧
    selects (.extestTrain drive) 0x09 true false drive ∧ selects .highz 0x06 false true s.jtag.boundary ∧
    selects .clamp 0x07 true false s.jtag.boundary ∧
    s.completes .idcode (fun t => t.jtag.ir = 0x01 ∧ fld t.jtag.dr 27 0 = 0x91445CB ∧ t.jtag.driving = false ∧
      t.jtag.highz = false ∧ ({ t with jtag := s.jtag, tick := s.tick } : State) = s) ∧
    s.completes (.samplePreload drive) (fun t => t.jtag.ir = 0x02 ∧ t.jtag.boundary = drive ∧ t.jtag.driving = false ∧
      t.jtag.highz = false ∧ t.jtag.captured.length = 560 ∧
      (∀ p, p < 416 → t.jtag.captured.getD p false = s.pinLevel p) ∧
      (∀ l, l < 144 → t.jtag.captured.getD (416 + l) false = (s.lane l).sig) ∧
      ({ t with jtag := s.jtag, tick := s.tick } : State) = s) ∧
    (code ∉ ([0x00, 0x01, 0x02, 0x06, 0x07, 0x08, 0x09] : List Byte) → exec (.bypass code) s = .next { s with jtag :=
      { s.jtag with ir := code, driving := false, highz := false, dr := 0 } }))

/-- R434-R437. The empty queue's tick is the model's choice (log entry 1). -/
def Obligations.IntegrityStopHolds : Prop :=
  let stopped := fun (s : State) =>
    s.mode = .stop ∧ s.stopPend = false ∧ s.pwr.held = false ∧ s.keys = [] ∧ (∀ e, (s.eng e).st = .stopped) ∧ (∀ l, (s.lane l).st = .off) ∧
    (∀ k, (s.cairn k).armed = []) ∧ (∀ n, s.slot n = none) ∧ s.boot.load = none ∧
    (match s.gh.running with | some r => r.op = 1 ∨ r.op = 2 ∨ r.op = 3 | none => True)
  let leaves := fun (c : Instr) => match c with
    | .powerGood _ => True
    | .resetN _ _ _ => True
    | .supplyUndervoltage _ _ => True
    | _ => False
  (∀ (s : State) (source slot blk : Nat) (addr : Word), s.pwr.held = false → s.mode ≠ .stop → source < 16 → slot < 256 →
    blk < 65536 →
    (s.stopPend = true → s.gh.running = none) →
    let u := s.integrityStop source slot blk addr
    u.stopPend = true ∧ u.mode = s.mode ∧ (∀ n, stopped (u.advance (n + 1))) ∧
    (s.stopPend = false → u.gh.running = none ∧ u.reg 0x700204 = addr ∧
      u.reg 0x700200 = BitVec.ofNat 32 (2 ^ 31 + source * 2 ^ 24 + slot * 2 ^ 16 + blk)) ∧
    (s.stopPend = true → bit (u.reg 0x700200) 30 = true ∧ (u.reg 0x700200).toNat % 2 ^ 16 =
      min blk ((s.reg 0x700200).toNat % 2 ^ 16))) ∧
  (∀ (s t : State), stopped s → (∀ c, c ∈ s.pending → ¬ leaves c) → step s = .next t →
    stopped t ∧ (∀ c, c ∈ t.pending → ¬ leaves c))
end

