-- ==== Sys2Proof/Laws/Table.lean ====
section
/-!
SUPPORT. What the table operations do: read after write, other keys, and that each keeps the canonical form.
-/
namespace Sys2Proof.Machine

variable {α : Type}

@[simp] theorem Table.get_nil (d : Nat → α) (i : Nat) : Table.get d [] i = d i := rfl

/-- A key at or below a bound that all keys exceed is not listed. -/
theorem Table.get_of_above (d : Nat → α) {n i : Nat} :
    ∀ {t : Table α}, Table.above n t = true → i ≤ n → Table.get d t i = d i
  | [], _, _ => rfl
  | (k, v) :: t, h, hi => by
    simp only [Table.above, Bool.and_eq_true, decide_eq_true_eq] at h
    have hne : i ≠ k := by omega
    simp only [Table.get, if_neg hne]
    exact Table.get_of_above d h.2 hi

theorem Table.get_insert_same (d : Nat → α) (i : Nat) (v : α) :
    ∀ t : Table α, Table.get d (Table.insert t i v) i = v
  | [] => by simp [Table.insert, Table.get]
  | (k, w) :: t => by
    unfold Table.insert
    split
    · simp [Table.get]
    · split
      · simp [Table.get]
      · rename_i h1 h2
        simp only [Table.get, if_neg h2]
        exact Table.get_insert_same d i v t

theorem Table.get_insert_other (d : Nat → α) {i j : Nat} (v : α) (h : j ≠ i) :
    ∀ t : Table α, Table.get d (Table.insert t i v) j = Table.get d t j
  | [] => by simp [Table.insert, Table.get, h]
  | (k, w) :: t => by
    unfold Table.insert
    split
    · simp [Table.get, h]
    · split
      · rename_i h1 h2
        subst h2
        simp [Table.get, h]
      · simp only [Table.get]
        split
        · rfl
        · exact Table.get_insert_other d v h t

theorem Table.get_erase_other (d : Nat → α) {i j : Nat} (h : j ≠ i) :
    ∀ t : Table α, Table.get d (Table.erase t i) j = Table.get d t j
  | [] => rfl
  | (k, w) :: t => by
    unfold Table.erase
    split
    · rename_i h1
      subst h1
      simp [Table.get, h, Table.get_erase_other d h t]
    · simp only [Table.get]
      split
      · rfl
      · exact Table.get_erase_other d h t

theorem Table.above_mono {m n : Nat} (h : m ≤ n) : ∀ {t : Table α}, Table.above n t = true → Table.above m t = true
  | [], _ => rfl
  | (k, v) :: t, ha => by
    simp only [Table.above, Bool.and_eq_true, decide_eq_true_eq] at ha ⊢
    exact ⟨by omega, Table.above_mono h ha.2⟩

theorem Table.above_insert {n i : Nat} (v : α) (h : n < i) :
    ∀ {t : Table α}, Table.above n t = true → Table.above n (Table.insert t i v) = true
  | [], _ => by simp [Table.insert, Table.above, h]
  | (k, w) :: t, ha => by
    simp only [Table.above, Bool.and_eq_true, decide_eq_true_eq] at ha
    unfold Table.insert
    split
    · simp [Table.above, h, ha.1, ha.2]
    · split
      · simp [Table.above, h, ha.2]
      · simp only [Table.above, Bool.and_eq_true, decide_eq_true_eq]
        exact ⟨ha.1, Table.above_insert v h ha.2⟩

theorem Table.above_erase {n i : Nat} :
    ∀ {t : Table α}, Table.above n t = true → Table.above n (Table.erase t i) = true
  | [], _ => rfl
  | (k, w) :: t, ha => by
    simp only [Table.above, Bool.and_eq_true, decide_eq_true_eq] at ha
    unfold Table.erase
    split
    · exact Table.above_erase ha.2
    · simp only [Table.above, Bool.and_eq_true, decide_eq_true_eq]
      exact ⟨ha.1, Table.above_erase ha.2⟩

variable [DecidableEq α]

theorem Table.wf_insert (d : Nat → α) {i : Nat} {v : α} (hv : v ≠ d i) :
    ∀ {t : Table α}, Table.wf d t = true → Table.wf d (Table.insert t i v) = true
  | [], _ => by simp [Table.insert, Table.wf, Table.above, hv]
  | (k, w) :: t, h => by
    simp only [Table.wf, Bool.and_eq_true, decide_eq_true_eq] at h
    unfold Table.insert
    split
    · rename_i hik
      simp only [Table.wf, Table.above, Bool.and_eq_true, decide_eq_true_eq]
      exact ⟨⟨hv, hik, Table.above_mono (by omega) h.1.2⟩, ⟨h.1.1, h.1.2⟩, h.2⟩
    · split
      · rename_i _ hik
        subst hik
        simp only [Table.wf, Bool.and_eq_true, decide_eq_true_eq]
        exact ⟨⟨hv, h.1.2⟩, h.2⟩
      · simp only [Table.wf, Bool.and_eq_true, decide_eq_true_eq]
        exact ⟨⟨h.1.1, Table.above_insert v (by omega) h.1.2⟩, Table.wf_insert d hv h.2⟩

theorem Table.wf_erase (d : Nat → α) {i : Nat} :
    ∀ {t : Table α}, Table.wf d t = true → Table.wf d (Table.erase t i) = true
  | [], _ => rfl
  | (k, w) :: t, h => by
    simp only [Table.wf, Bool.and_eq_true, decide_eq_true_eq] at h
    unfold Table.erase
    split
    · exact Table.wf_erase d h.2
    · simp only [Table.wf, Bool.and_eq_true, decide_eq_true_eq]
      exact ⟨⟨h.1.1, Table.above_erase h.1.2⟩, Table.wf_erase d h.2⟩

/-- A write keeps the canonical form. -/
theorem Table.wf_set (d : Nat → α) (t : Table α) (i : Nat) (v : α) (h : Table.wf d t = true) :
    Table.wf d (Table.set d t i v) = true := by
  unfold Table.set
  split
  · exact Table.wf_erase d h
  · rename_i hv
    exact Table.wf_insert d hv h

theorem Table.wf_modify (d : Nat → α) (t : Table α) (i : Nat) (f : α → α) (h : Table.wf d t = true) :
    Table.wf d (Table.modify d t i f) = true := Table.wf_set d t i _ h

theorem Table.wf_setList (d : Nat → α) :
    ∀ (vs : List α) (t : Table α) (i : Nat), Table.wf d t = true → Table.wf d (Table.setList d t i vs) = true
  | [], _, _, h => h
  | v :: vs, t, i, h => Table.wf_setList d vs _ (i + 1) (Table.wf_set d t i v h)

omit [DecidableEq α] in
theorem Table.above_filter {n : Nat} (p : Nat × α → Bool) :
    ∀ {t : Table α}, Table.above n t = true → Table.above n (t.filter p) = true
  | [], _ => rfl
  | (k, v) :: t, h => by
    simp only [Table.above, Bool.and_eq_true, decide_eq_true_eq] at h
    rw [List.filter_cons]
    split
    · simp only [Table.above, Bool.and_eq_true, decide_eq_true_eq]
      exact ⟨h.1, Table.above_filter p h.2⟩
    · exact Table.above_filter p h.2

/-- Dropping entries keeps the canonical form. -/
theorem Table.wf_keep (d : Nat → α) (p : Nat → α → Bool) :
    ∀ {t : Table α}, Table.wf d t = true → Table.wf d (Table.keep t p) = true
  | [], _ => rfl
  | (k, v) :: t, h => by
    simp only [Table.wf, Bool.and_eq_true, decide_eq_true_eq] at h
    unfold Table.keep
    rw [List.filter_cons]
    split
    · simp only [Table.wf, Bool.and_eq_true, decide_eq_true_eq]
      exact ⟨⟨h.1.1, Table.above_filter _ h.1.2⟩, Table.wf_keep d p h.2⟩
    · exact Table.wf_keep d p h.2

/-- Read after a write to another key. -/
theorem Table.get_set_other (d : Nat → α) (t : Table α) {i j : Nat} (v : α) (h : j ≠ i) :
    Table.get d (Table.set d t i v) j = Table.get d t j := by
  unfold Table.set
  split
  · exact Table.get_erase_other d h t
  · exact Table.get_insert_other d v h t

omit [DecidableEq α] in
theorem Table.get_erase_same (d : Nat → α) {i : Nat} : ∀ t : Table α, Table.get d (Table.erase t i) i = d i
  | [] => rfl
  | (k, w) :: t => by
    unfold Table.erase
    split
    · exact Table.get_erase_same d t
    · rename_i hik
      simp only [Table.get, if_neg hik]
      exact Table.get_erase_same d t

/-- Read after a write to the same key. -/
theorem Table.get_set_same (d : Nat → α) (t : Table α) (i : Nat) (v : α) : Table.get d (Table.set d t i v) i = v := by
  unfold Table.set
  split
  · rename_i hv
    rw [Table.get_erase_same d t, hv]
  · exact Table.get_insert_same d i v t

/-- What a write leaves under every key. -/
theorem Table.get_set (d : Nat → α) (t : Table α) (i j : Nat) (v : α) :
    Table.get d (Table.set d t i v) j = if j = i then v else Table.get d t j := by
  split
  · rename_i h
    rw [h, Table.get_set_same]
  · rename_i h
    exact Table.get_set_other d t v h

/-- Every listed entry is changed, an unlisted key keeps its default. -/
theorem Table.get_mapAll (d : Nat → α) (f : Nat → α → α) (i : Nat) :
    ∀ t : Table α, Table.get d (Table.mapAll d t f) i = if Table.has t i then f i (Table.get d t i) else d i
  | [] => by simp [Table.mapAll, Table.has]
  | (k, v) :: t => by
    have ih := Table.get_mapAll d f i t
    unfold Table.mapAll
    by_cases hik : i = k
    · subst hik
      split
      · rename_i hf
        simp [Table.get_erase_same, Table.has, Table.get, hf]
      · simp [Table.has, Table.get]
    · have hh : Table.has ((k, v) :: t) i = Table.has t i := by
        have hki : decide (k = i) = false := decide_eq_false (fun h => hik h.symm)
        unfold Table.has
        rw [List.any_cons, hki, Bool.false_or]
      rw [hh]
      split
      · rw [Table.get_erase_other d hik, ih]
        simp only [Table.get, if_neg hik]
      · simp only [Table.get, if_neg hik]
        exact ih

theorem Table.above_mapAll (d : Nat → α) (f : Nat → α → α) {n : Nat} :
    ∀ {t : Table α}, Table.above n t = true → Table.above n (Table.mapAll d t f) = true
  | [], _ => rfl
  | (k, v) :: t, h => by
    simp only [Table.above, Bool.and_eq_true, decide_eq_true_eq] at h
    unfold Table.mapAll
    split
    · exact Table.above_erase (Table.above_mapAll d f h.2)
    · simp only [Table.above, Bool.and_eq_true, decide_eq_true_eq]
      exact ⟨h.1, Table.above_mapAll d f h.2⟩

/-- Changing every entry keeps the canonical form. -/
theorem Table.wf_mapAll (d : Nat → α) (f : Nat → α → α) :
    ∀ {t : Table α}, Table.wf d t = true → Table.wf d (Table.mapAll d t f) = true
  | [], _ => rfl
  | (k, v) :: t, h => by
    simp only [Table.wf, Bool.and_eq_true, decide_eq_true_eq] at h
    unfold Table.mapAll
    split
    · exact Table.wf_erase d (Table.wf_mapAll d f h.2)
    · rename_i hf
      simp only [Table.wf, Bool.and_eq_true, decide_eq_true_eq]
      exact ⟨⟨hf, Table.above_mapAll d f h.1.2⟩, Table.wf_mapAll d f h.2⟩

end Sys2Proof.Machine
end

