-- ==== Sys2Proof/Laws/State.lean ====
section
/-!
SUPPORT. Small lemmas about the unit records and registers of the state: what each update changes and what it leaves.
-/
namespace Sys2Proof.Machine

open Sys2Proof

namespace State

/-! ### Registers -/

theorem reg_setReg_other (s : State) {a b : Nat} (w : Word) (h : b ≠ a) : (s.setReg a w).reg b = s.reg b :=
  Table.get_set_other resetWord s.regs w h

@[simp] theorem reg_setReg_same (s : State) (a : Nat) (w : Word) : (s.setReg a w).reg a = w :=
  Table.get_set_same resetWord s.regs a w

theorem reg_setReg (s : State) (a b : Nat) (w : Word) : (s.setReg a w).reg b = if b = a then w else s.reg b :=
  Table.get_set resetWord s.regs a b w

theorem wf_setReg (s : State) (a : Nat) (w : Word) (h : Table.wf resetWord s.regs = true) :
    Table.wf resetWord (s.setReg a w).regs = true := Table.wf_set resetWord s.regs a w h

@[simp] theorem setReg_pending (s : State) (a : Nat) (w : Word) : (s.setReg a w).pending = s.pending := rfl
@[simp] theorem setReg_now (s : State) (a : Nat) (w : Word) : (s.setReg a w).now = s.now := rfl
@[simp] theorem setReg_mode (s : State) (a : Nat) (w : Word) : (s.setReg a w).mode = s.mode := rfl
@[simp] theorem setReg_gh (s : State) (a : Nat) (w : Word) : (s.setReg a w).gh = s.gh := rfl
@[simp] theorem setReg_log (s : State) (a : Nat) (w : Word) : (s.setReg a w).log = s.log := rfl
@[simp] theorem setReg_tb (s : State) (a : Nat) (w : Word) : (s.setReg a w).tb = s.tb := rfl
@[simp] theorem setReg_engines (s : State) (a : Nat) (w : Word) : (s.setReg a w).engines = s.engines := rfl
@[simp] theorem setReg_spad (s : State) (a : Nat) (w : Word) : (s.setReg a w).spad = s.spad := rfl
@[simp] theorem setReg_keys (s : State) (a : Nat) (w : Word) : (s.setReg a w).keys = s.keys := rfl
@[simp] theorem setReg_pwr (s : State) (a : Nat) (w : Word) : (s.setReg a w).pwr = s.pwr := rfl

/-! ### The record of the present clock -/

@[simp] theorem setTick_tick (s : State) (t : Tick) : (s.setTick t).tick = t := rfl
@[simp] theorem setReg_tick (s : State) (a : Nat) (w : Word) : (s.setReg a w).tick = s.tick := rfl
@[simp] theorem setTick_regs (s : State) (t : Tick) : (s.setTick t).regs = s.regs := rfl
@[simp] theorem setTick_reg (s : State) (t : Tick) (a : Nat) : (s.setTick t).reg a = s.reg a := rfl
@[simp] theorem setTick_eng (s : State) (t : Tick) (e : Nat) : (s.setTick t).eng e = s.eng e := rfl
@[simp] theorem setTick_engines (s : State) (t : Tick) : (s.setTick t).engines = s.engines := rfl
@[simp] theorem setTick_pending (s : State) (t : Tick) : (s.setTick t).pending = s.pending := rfl
@[simp] theorem setTick_now (s : State) (t : Tick) : (s.setTick t).now = s.now := rfl
@[simp] theorem setTick_gh (s : State) (t : Tick) : (s.setTick t).gh = s.gh := rfl
@[simp] theorem setTick_mode (s : State) (t : Tick) : (s.setTick t).mode = s.mode := rfl
@[simp] theorem setTick_pwr (s : State) (t : Tick) : (s.setTick t).pwr = s.pwr := rfl
@[simp] theorem setTick_log (s : State) (t : Tick) : (s.setTick t).log = s.log := rfl

/-- A counter after n events; every other register is as it was. -/
theorem reg_addCnt (s : State) (a n b : Nat) : (s.addCnt a n).reg b = if b = a then satAdd (s.reg a) n else s.reg b := by
  unfold State.addCnt; rw [setTick_reg, reg_setReg]

/-- A register after a bit is set in it; every other register is as it was. -/
theorem reg_setRb_true (s : State) (a n b : Nat) :
    (s.setRb a n true).reg b = if b = a then putBit (s.reg a) n true else s.reg b := by
  unfold State.setRb; rw [setTick_reg, reg_setReg]; rfl

/-- Time that passes forgets the clock; none leaves it. -/
theorem tick_after_pos (n : Nat) (t : Tick) (h : n ≠ 0) : t.after n = {} := by simp [Tick.after, h]
@[simp] theorem tick_after_zero (t : Tick) : t.after 0 = t := rfl

@[simp] theorem setRf_gh (s : State) (a hi lo v : Nat) : (s.setRf a hi lo v).gh = s.gh := rfl
@[simp] theorem setRf_pending (s : State) (a hi lo v : Nat) : (s.setRf a hi lo v).pending = s.pending := rfl
@[simp] theorem setRb_gh (s : State) (a n : Nat) (b : Bool) : (s.setRb a n b).gh = s.gh := rfl
@[simp] theorem setRb_mode (s : State) (a n : Nat) (b : Bool) : (s.setRb a n b).mode = s.mode := rfl
@[simp] theorem setRb_pwr (s : State) (a n : Nat) (b : Bool) : (s.setRb a n b).pwr = s.pwr := rfl
@[simp] theorem setRb_log (s : State) (a n : Nat) (b : Bool) : (s.setRb a n b).log = s.log := rfl
@[simp] theorem setRb_pending (s : State) (a n : Nat) (b : Bool) : (s.setRb a n b).pending = s.pending := rfl

/-! ### Unit records -/

theorem eng_setEng_other (s : State) {e f : Nat} (v : Engine) (h : f ≠ e) : (s.setEng e v).eng f = s.eng f :=
  Table.get_set_other _ s.engines v h

@[simp] theorem eng_setEng_same (s : State) (k : Nat) (v : Engine) : (s.setEng k v).eng k = v :=
  Table.get_set_same _ _ k v

@[simp] theorem lane_setLane_same (s : State) (k : Nat) (v : Lane) : (s.setLane k v).lane k = v :=
  Table.get_set_same _ _ k v

@[simp] theorem chan_setChan_same (s : State) (k : Nat) (v : Channel) : (s.setChan k v).chan k = v :=
  Table.get_set_same _ _ k v

@[simp] theorem cis_setCis_same (s : State) (k : Nat) (v : Cistern) : (s.setCis k v).cis k = v :=
  Table.get_set_same _ _ k v

@[simp] theorem terr_setTerr_same (s : State) (k : Nat) (v : Terrace) : (s.setTerr k v).terr k = v :=
  Table.get_set_same _ _ k v

@[simp] theorem pin_setPin_same (s : State) (k : Nat) (v : Pin) : (s.setPin k v).pin k = v :=
  Table.get_set_same _ _ k v

@[simp] theorem bank_setBank_same (s : State) (k : Nat) (v : Bank) : (s.setBank k v).bank k = v :=
  Table.get_set_same _ _ k v

@[simp] theorem pll_setPll_same (s : State) (k : Nat) (v : Pll) : (s.setPll k v).pll k = v :=
  Table.get_set_same _ _ k v

@[simp] theorem dr_setDr_same (s : State) (k : Nat) (v : Dram) : (s.setDr k v).dr k = v :=
  Table.get_set_same _ _ k v

@[simp] theorem cairn_setCairn_same (s : State) (k : Nat) (v : Cairn) : (s.setCairn k v).cairn k = v :=
  Table.get_set_same _ _ k v

@[simp] theorem thread_setThread_same (s : State) (k : Nat) (v : Thread) : (s.setThread k v).thread k = v :=
  Table.get_set_same _ _ k v

@[simp] theorem flow_setFlow_same (s : State) (k : Nat) (v : Flow) : (s.setFlow k v).flow k = v :=
  Table.get_set_same _ _ k v

@[simp] theorem queue_setQueue_same (s : State) (k : Nat) (v : OQueue) : (s.setQueue k v).queue k = v :=
  Table.get_set_same _ _ k v

@[simp] theorem monIn_setMonIn_same (s : State) (k : Nat) (v : MonInput) : (s.setMonIn k v).monIn k = v :=
  Table.get_set_same _ _ k v

@[simp] theorem keySlot_setKey_same (s : State) (k : Nat) (v : KeySlot) : (s.setKey k v).keySlot k = v :=
  Table.get_set_same _ _ k v


theorem lane_setLane_other (s : State) {l m : Nat} (v : Lane) (h : m ≠ l) : (s.setLane l v).lane m = s.lane m :=
  Table.get_set_other _ s.lanes v h

theorem chan_setChan_other (s : State) {c d : Nat} (v : Channel) (h : d ≠ c) : (s.setChan c v).chan d = s.chan d :=
  Table.get_set_other _ s.chans v h

theorem cis_setCis_other (s : State) {i j : Nat} (v : Cistern) (h : j ≠ i) : (s.setCis i v).cis j = s.cis j :=
  Table.get_set_other _ s.cisterns v h

theorem terr_setTerr_other (s : State) {t u : Nat} (v : Terrace) (h : u ≠ t) : (s.setTerr t v).terr u = s.terr u :=
  Table.get_set_other _ s.terraces v h

theorem queue_setQueue_other (s : State) {q r : Nat} (v : OQueue) (h : r ≠ q) : (s.setQueue q v).queue r = s.queue r :=
  Table.get_set_other _ s.orc.queues v h

@[simp] theorem setEng_regs (s : State) (e : Nat) (v : Engine) : (s.setEng e v).regs = s.regs := rfl
@[simp] theorem setEng_spad (s : State) (e : Nat) (v : Engine) : (s.setEng e v).spad = s.spad := rfl
@[simp] theorem setEng_gh (s : State) (e : Nat) (v : Engine) : (s.setEng e v).gh = s.gh := rfl
@[simp] theorem setEng_mode (s : State) (e : Nat) (v : Engine) : (s.setEng e v).mode = s.mode := rfl
@[simp] theorem setEng_now (s : State) (e : Nat) (v : Engine) : (s.setEng e v).now = s.now := rfl
@[simp] theorem setEng_pending (s : State) (e : Nat) (v : Engine) : (s.setEng e v).pending = s.pending := rfl
@[simp] theorem setEng_dsp (s : State) (e : Nat) (v : Engine) : (s.setEng e v).dsp = s.dsp := rfl
@[simp] theorem setEng_rw (s : State) (e : Nat) (v : Engine) : (s.setEng e v).rw = s.rw := rfl
@[simp] theorem setChan_lanes (s : State) (c : Nat) (v : Channel) : (s.setChan c v).lanes = s.lanes := rfl
@[simp] theorem setLane_chans (s : State) (l : Nat) (v : Lane) : (s.setLane l v).chans = s.chans := rfl
@[simp] theorem setTerr_bram (s : State) (t : Nat) (v : Terrace) : (s.setTerr t v).bram = s.bram := rfl
@[simp] theorem setGate_regs (s : State) (g : Nat) (o : Bool) : (s.setGate g o).regs = s.regs := rfl
@[simp] theorem setFence_regs (s : State) (d : Nat) (f : Fence) : (s.setFence d f).regs = s.regs := rfl
@[simp] theorem fresh_regs (s : State) : s.fresh.regs = s.regs := rfl
@[simp] theorem alert_regs (s : State) : s.alert.regs = s.regs := rfl

/-! ### The error log -/

theorem traceStop_eq (s : State) (k : Nat) : s.traceStop k = { s with trace := (s.traceStop k).trace } := by
  unfold State.traceStop; split <;> rfl

/-- An entry stored changes the log, DEV_GSTAT or LOG_STAT, the alert and the trace only (R502). -/
theorem logStore_eq (s : State) (ev blk : Nat) (d0 : Word) (re : Byte) (d1 : Nat) :
    s.logStore ev blk d0 re d1 = { s with
      log := (s.logStore ev blk d0 re d1).log, regs := (s.logStore ev blk d0 re d1).regs
      tick := (s.logStore ev blk d0 re d1).tick, gh := (s.logStore ev blk d0 re d1).gh
      trace := (s.logStore ev blk d0 re d1).trace } := by
  unfold State.logStore
  simp only []
  split
  · rfl
  · split
    · rw [traceStop_eq]; rfl
    · rfl

/-- So does an event with its suppression (R503). -/
theorem logEvent_eq (s : State) (ev blk : Nat) (d0 : Word) (re : Byte) (d1 : Nat) :
    s.logEvent ev blk d0 re d1 = { s with
      log := (s.logEvent ev blk d0 re d1).log, regs := (s.logEvent ev blk d0 re d1).regs
      tick := (s.logEvent ev blk d0 re d1).tick, gh := (s.logEvent ev blk d0 re d1).gh
      trace := (s.logEvent ev blk d0 re d1).trace } := by
  unfold State.logEvent
  simp only []
  split
  · split
    · rfl
    · split
      · rw [logStore_eq]
      · rw [logStore_eq]
  · rw [logStore_eq]

/-- The log changes of the Gatehouse's record only the alert and that it was raised. -/
theorem logStore_gh (s : State) (ev blk : Nat) (d0 : Word) (re : Byte) (d1 : Nat) :
    (s.logStore ev blk d0 re d1).gh = { s.gh with
      alert := (s.logStore ev blk d0 re d1).gh.alert, raised := (s.logStore ev blk d0 re d1).gh.raised } := by
  unfold State.logStore
  simp only []
  split
  · rfl
  · split
    · rw [traceStop_eq]; rfl
    · rfl

theorem logEvent_gh (s : State) (ev blk : Nat) (d0 : Word) (re : Byte) (d1 : Nat) :
    (s.logEvent ev blk d0 re d1).gh = { s.gh with
      alert := (s.logEvent ev blk d0 re d1).gh.alert, raised := (s.logEvent ev blk d0 re d1).gh.raised } := by
  unfold State.logEvent
  simp only []
  split
  · split
    · rfl
    · split
      · rw [logStore_gh]
      · rw [logStore_gh]
  · rw [logStore_gh]

/-! ### Time -/

@[simp] theorem pass_now (n : Nat) (s : State) : (s.pass n).now = s.now + 2000 * n := by unfold State.pass; split <;> rfl
@[simp] theorem pass_pending (n : Nat) (s : State) : (s.pass n).pending = s.pending := by unfold State.pass; split <;> rfl
@[simp] theorem pass_regs (n : Nat) (s : State) : (s.pass n).regs = s.regs := by unfold State.pass; split <;> rfl
@[simp] theorem pass_mode (n : Nat) (s : State) : (s.pass n).mode = s.mode := by unfold State.pass; split <;> rfl
@[simp] theorem pass_pwr (n : Nat) (s : State) : (s.pass n).pwr = s.pwr := by unfold State.pass; split <;> rfl
@[simp] theorem pass_keys (n : Nat) (s : State) : (s.pass n).keys = s.keys := by unfold State.pass; split <;> rfl
@[simp] theorem pass_spad (n : Nat) (s : State) : (s.pass n).spad = s.spad := by unfold State.pass; split <;> rfl
@[simp] theorem pass_stopPend (n : Nat) (s : State) : (s.pass n).stopPend = s.stopPend := by unfold State.pass; split <;> rfl
@[simp] theorem pass_running (n : Nat) (s : State) : (s.pass n).gh.running = s.gh.running := by
  unfold State.pass; split <;> rfl

/-- A stop that comes into force keeps the time, the queue, the supplies and the scratchpads. -/
theorem stopNow_frame (s : State) : s.stopNow.now = s.now ∧ s.stopNow.pending = s.pending ∧ s.stopNow.pwr = s.pwr ∧
    s.stopNow.spad = s.spad ∧ s.stopNow.mode = .stop ∧ s.stopNow.keys = [] ∧ s.stopNow.stopPend = false ∧
    s.stopNow.gh.running = s.gh.running := by
  unfold State.stopNow
  simp only []
  refine ⟨?_, ?_, ?_, ?_, ?_, ?_, ?_, ?_⟩ <;> first | (rw [logEvent_eq]; rfl) | (rw [logEvent_gh]; rfl)

/-- What a fold's every step keeps, the fold keeps. -/
theorem foldl_keeps {α β : Type} (g : State → β) (f : State → α → State) (h : ∀ s a, g (f s a) = g s) :
    ∀ (l : List α) (s : State), g (l.foldl f s) = g s
  | [], _ => rfl
  | a :: l, s => by rw [List.foldl_cons, foldl_keeps g f h l, h]

/-- What the time, the queue, the mode and the supplies of a device are; an event of the fabric's changes none of them. -/
def clockParts (s : State) : Nat × List Instr × Mode × Power × Bool × Option Running :=
  (s.now, s.pending, s.mode, s.pwr, s.stopPend, s.gh.running)

theorem clockParts_logEvent (s : State) (ev blk : Nat) (d0 : Word) (re : Byte) (d1 : Nat) :
    (s.logEvent ev blk d0 re d1).clockParts = s.clockParts := by
  unfold clockParts
  rw [logEvent_eq]
  show (_, _, _, _, _, (s.logEvent ev blk d0 re d1).gh.running) = _
  rw [logEvent_gh]

/-- A Cairn's end keeps them (R132). -/
theorem clockParts_cairnsEnd (s : State) : s.cairnsEnd.clockParts = s.clockParts := by
  unfold cairnsEnd
  apply foldl_keeps
  rintro s ⟨k, cause⟩
  unfold cairnEnds withdrawBinding unbindSwitch
  cases cause <;> dsimp only <;> repeat' split
  all_goals rfl

/-- So do drivers turned off by a contention (R288). -/
theorem clockParts_spinesOff (s : State) : s.spinesOff.clockParts = s.clockParts := by
  have h : ∀ (l : List (Nat × Nat)) (s : State),
      (l.foldl (fun (s : State) e => s.spineOff e.1 e.2) s).clockParts = s.clockParts := by
    apply foldl_keeps
    rintro s ⟨t, n⟩
    unfold spineOff
    rw [clockParts_logEvent]
    rfl
  show (State.setTick _ _).clockParts = _
  exact h s.tick.clash s

theorem clockParts_repairNow (s : State) (t : Nat) (loc : Word) : (s.repairNow t loc).clockParts = s.clockParts := by
  unfold repairNow
  dsimp only
  rw [clockParts_logEvent]
  unfold addCnt16
  split <;> (try dsimp only) <;> (try split) <;> rfl

/-- So do repairs that start (R495). -/
theorem clockParts_repairsStart (s : State) : s.repairsStart.clockParts = s.clockParts := by
  unfold repairsStart
  apply foldl_keeps
  rintro s ⟨t, x⟩
  apply foldl_keeps
  intro s loc
  split
  · rw [clockParts_repairNow]; rfl
  · rfl

theorem clockParts_stepEnds (s : State) : s.stepEnds.clockParts = s.clockParts := by
  unfold stepEnds
  split
  · rw [clockParts_repairsStart, clockParts_spinesOff]
  · exact clockParts_spinesOff s

theorem clockParts_pass (n : Nat) (s : State) : (s.pass n).clockParts =
    (s.now + 2000 * n, s.pending, s.mode, s.pwr, s.stopPend, s.gh.running) := by
  unfold State.pass; split <;> rfl

/-- No time leaves a pending stop pending. -/
@[simp] theorem advance_zero (s : State) : s.advance 0 = s.pass 0 := rfl

/-- Time keeps the queue, the supplies and the running command, and its n clocks are 2 ns each; a pending stop comes into force at
the first of them (R435). -/
theorem advance_parts (n : Nat) (s : State) : (s.advance n).clockParts =
    if n ≠ 0 ∧ s.stopPend = true ∧ s.pwr.held = false then (s.now + 2000 * n, s.pending, .stop, s.pwr, false, s.gh.running)
    else (s.now + 2000 * n, s.pending, s.mode, s.pwr, s.stopPend, s.gh.running) := by
  by_cases hn : n = 0
  · subst hn; simp [clockParts_pass]
  · have hc := clockParts_cairnsEnd s
    unfold clockParts at hc
    simp only [Prod.mk.injEq] at hc
    obtain ⟨h1, h2, h3, h4, h5, h6⟩ := hc
    unfold State.advance
    rw [if_neg hn, clockParts_stepEnds, clockParts_pass]
    unfold clockEnds
    dsimp only
    by_cases hs : s.stopPend = true ∧ s.pwr.held = false
    · obtain ⟨a1, a2, a3, -, a5, -, a7, a8⟩ := stopNow_frame s.cairnsEnd
      simp only [h4, h5, hs.1, hs.2, Bool.not_false, and_self, if_true, ne_eq, hn, not_false_eq_true, a1, a2, a3, a5, a7, a8,
        h1, h2, h6]
    · have hs' : ¬ (s.stopPend = true ∧ (!s.pwr.held) = true) := by simpa using hs
      rw [h5, h4, if_neg hs', if_neg (by intro h; exact hs h.2), h1, h2, h3, h4, h5, h6]

@[simp] theorem advance_now (n : Nat) (s : State) : (s.advance n).now = s.now + 2000 * n := by
  have h := congrArg Prod.fst (advance_parts n s)
  split at h <;> exact h
@[simp] theorem advance_pending (n : Nat) (s : State) : (s.advance n).pending = s.pending := by
  have h := congrArg (fun p => p.2.1) (advance_parts n s)
  split at h <;> exact h
@[simp] theorem advance_pwr (n : Nat) (s : State) : (s.advance n).pwr = s.pwr := by
  have h := congrArg (fun p => p.2.2.2.1) (advance_parts n s)
  split at h <;> exact h
@[simp] theorem advance_running (n : Nat) (s : State) : (s.advance n).gh.running = s.gh.running := by
  have h := congrArg (fun p => p.2.2.2.2.2) (advance_parts n s)
  split at h <;> exact h
/-- In a device in which no stop is pending, time leaves the mode. -/
theorem advance_mode {s : State} (n : Nat) (h : s.stopPend = false) : (s.advance n).mode = s.mode := by
  have h1 := congrArg (fun p => p.2.2.1) (advance_parts n s)
  rw [if_neg (by simp [h])] at h1
  exact h1
theorem advance_live {s : State} (n : Nat) (h : s.stopPend = false) : (s.advance n).live = s.live := by
  unfold State.live; rw [advance_mode n h, advance_pwr]

/-- A device that is not live stays so while time passes. -/
theorem advance_not_live (n : Nat) {s : State} (h : s.live = false) : (s.advance n).live = false := by
  have h1 := congrArg (fun p => p.2.2.1) (advance_parts n s)
  unfold State.live at *
  rw [advance_pwr]
  split at h1
  · have h2 : (s.advance n).mode = .stop := h1
    simp [h2]
  · have h2 : (s.advance n).mode = s.mode := h1
    rw [h2]; exact h

/-- An event on a device that is not live is the passing of its time. -/
theorem event_not_live (dt : Nat) (s : State) (f : State → State) (h : s.live = false) :
    event dt s f = .next (s.advance dt) := by
  simp [event, advance_not_live dt h]

/-- An event on a live device acts after its time has passed. -/
theorem event_live (dt : Nat) (s : State) (f : State → State) (h : (s.advance dt).live = true) :
    event dt s f = .next (f (s.advance dt)) := by
  simp [event, h]

theorem unitEvent_of_ok (dt : Nat) (s : State) (f : State → State) (ok : Bool) (h : ok = true) :
    unitEvent ok dt s f = event dt s f := by simp [unitEvent, h]

/-! ### Replies -/

/-- With no command running, a final reply changes nothing. -/
theorem finish_idle (s : State) (st re : Byte) (ws : List Word) (h : s.gh.running = none) : s.finish st re ws = s := by
  unfold State.finish; rw [h]

/-- A final reply ends the running command (R53). -/
theorem finish_running (s : State) (st re : Byte) (ws : List Word) : (s.finish st re ws).gh.running = none := by
  unfold State.finish
  split
  · assumption
  · rfl

@[simp] theorem finish_mode (s : State) (st re : Byte) (ws : List Word) : (s.finish st re ws).mode = s.mode := by
  unfold State.finish; split <;> rfl
@[simp] theorem finish_regs (s : State) (st re : Byte) (ws : List Word) : (s.finish st re ws).regs = s.regs := by
  unfold State.finish; split <;> rfl
@[simp] theorem finish_pwr (s : State) (st re : Byte) (ws : List Word) : (s.finish st re ws).pwr = s.pwr := by
  unfold State.finish; split <;> rfl
@[simp] theorem finish_keys (s : State) (st re : Byte) (ws : List Word) : (s.finish st re ws).keys = s.keys := by
  unfold State.finish; split <;> rfl
@[simp] theorem finish_pending (s : State) (st re : Byte) (ws : List Word) :
    (s.finish st re ws).pending = s.pending := by
  unfold State.finish; split <;> rfl
@[simp] theorem finish_engines (s : State) (st re : Byte) (ws : List Word) :
    (s.finish st re ws).engines = s.engines := by
  unfold State.finish; split <;> rfl

end State

end Sys2Proof.Machine
end

