-- ==== Sys2Proof/Laws/Engine.lean ====
section
/-!
SUPPORT. What the issue of an engine instruction does: its row, its count and the boundary after it.
-/
namespace Sys2Proof.Machine

open Sys2Proof

namespace Engine

@[simp] theorem setG_wait (x : Engine) (n : Nat) (v : Word) : (x.setG n v).wait = x.wait := by
  unfold setG; split <;> rfl
@[simp] theorem setG_st (x : Engine) (n : Nat) (v : Word) : (x.setG n v).st = x.st := by unfold setG; split <;> rfl
@[simp] theorem setG_dbg (x : Engine) (n : Nat) (v : Word) : (x.setG n v).dbg = x.dbg := by unfold setG; split <;> rfl
@[simp] theorem setG_stopPending (x : Engine) (n : Nat) (v : Word) : (x.setG n v).stopPending = x.stopPending := by
  unfold setG; split <;> rfl

/-- A general register after a write: g0 reads 0 and discards. -/
theorem g_setG (x : Engine) (n m : Nat) (v : Word) :
    (x.setG n v).g m = if m = 0 then 0 else if m = n then v else x.g m := by
  unfold setG g
  by_cases hm : m = 0
  · simp [hm]
  · by_cases hn : n = 0
    · subst hn; simp [hm]
    · simp only [hm, hn, if_false]
      exact Table.get_set _ _ _ _ _

/-- Going on changes the context alone. -/
theorem loopBack_rest (pc : Nat) : ∀ (k : Nat) (x : Engine),
    (x.loopBack pc k).wait = x.wait ∧ (x.loopBack pc k).st = x.st ∧ (x.loopBack pc k).dbg = x.dbg ∧
    (x.loopBack pc k).stopPending = x.stopPending
  | 0, x => ⟨rfl, rfl, rfl, rfl⟩
  | k + 1, x => by
    unfold loopBack
    split
    · exact loopBack_rest pc k x
    · split
      · exact ⟨rfl, rfl, rfl, rfl⟩
      · split
        · unfold setPc setLevel; exact ⟨rfl, rfl, rfl, rfl⟩
        · have h := loopBack_rest pc k { x with ctx := { x.ctx with depth := k } }
          exact h

@[simp] theorem advance_wait (x : Engine) : x.advance.wait = x.wait := (loopBack_rest _ 3 x).1
@[simp] theorem advance_st (x : Engine) : x.advance.st = x.st := (loopBack_rest _ 3 x).2.1
@[simp] theorem advance_dbg (x : Engine) : x.advance.dbg = x.dbg := (loopBack_rest _ 3 x).2.2.1
@[simp] theorem advance_stopPending (x : Engine) : x.advance.stopPending = x.stopPending := (loopBack_rest _ 3 x).2.2.2

end Engine

namespace State

/-- What `quiet` gives, taken apart. -/
theorem quiet_parts {s : State} {e : Nat} (h : s.quiet e = true) :
    s.mayIssue e = true ∧ (s.eng e).ctx.pc < spadSize ∧ (s.eng e).ctx.pc % 4 = 0 ∧
    s.breakAt e (s.eng e).ctx.pc = none ∧ (s.eng e).stopPending = false ∧ (s.eng e).dbg.stepping = false ∧
    (s.eng e).dbg.haltPending = false ∧ (s.eng e).dbg.watchHit = none ∧ (s.eng e).st = .run ∧ (s.eng e).wait = none ∧
    s.spadBadAt e (s.eng e).ctx.pc = false ∧ s.weakAt (.scratchpad e ((s.eng e).ctx.pc / 8 * 8)) ≠ .corrected := by
  have h0 := h
  unfold quiet at h
  simp only [Bool.and_eq_true, decide_eq_true_eq, Bool.not_eq_true', Option.isNone_iff_eq_none] at h
  obtain ⟨⟨⟨⟨⟨⟨⟨⟨⟨h1, h2⟩, h3⟩, h4⟩, h5⟩, h6⟩, h7⟩, h8⟩, ha⟩, hb⟩ := h
  have h9 := h1
  unfold mayIssue at h9
  simp only [Bool.and_eq_true, decide_eq_true_eq, Option.isNone_iff_eq_none] at h9
  exact ⟨h1, h2, h3, h4, h5, h6, h7, h8, h9.1.1.1.1.2, h9.1.1.1.2, ha, hb⟩

/-- The boundary after an instruction that waits for nothing, with nothing waiting for it. -/
theorem settle_idle {s : State} {e : Nat} (hw : (s.eng e).wait = none) (hp : (s.eng e).stopPending = false)
    (hr : (s.eng e).st = .run) (hs : (s.eng e).dbg.stepping = false) (hh : (s.eng e).dbg.haltPending = false)
    (ht : (s.eng e).dbg.watchHit = none) : s.settle e = s := by
  unfold settle
  simp [hw, hp, hr, hs, hh, ht]

/-- Fetch from a coded word without a correctable error meets nothing. -/
theorem spadMeet_clean {s : State} {e a : Nat} (h : s.weakAt (.scratchpad e (a / 8 * 8)) ≠ .corrected) : s.spadMeet e a = s := by
  unfold spadMeet; simp [h]

/-- Issue changes no stored word's error. -/
theorem issued_weak (s : State) (e : Nat) : (s.issued e).weak = s.weak := by
  unfold issued modEng addCnt setTick setReg setEng; rfl

/-- The row of an instruction that issues with nothing else at its boundary. -/
theorem instr_quiet {s : State} {e : Nat} {regs : List Nat} (f : State → State) (hq : s.quiet e = true) (he : e < 64)
    (hr : regs.all (fun r => decide (r < 32)) = true) :
    instr e regs s f = .next ((f (s.issued e)).settle e) := by
  obtain ⟨h1, h2, h3, h4, -, -, -, -, -, -, ha, hb⟩ := quiet_parts hq
  have hm : (s.issued e).spadMeet e (s.eng e).ctx.pc = s.issued e := by
    apply spadMeet_clean
    unfold weakAt at *
    rw [issued_weak]
    exact hb
  unfold instr issue
  have h2' : ¬ spadSize ≤ (s.eng e).ctx.pc := by omega
  simp [he, hr, h1, h2', h3, h4, ha, hm]

theorem issued_eng (s : State) (e : Nat) : (s.issued e).eng e = s.atIssue e := by
  unfold issued atIssue modEng addCnt
  rw [setTick_eng]
  have : ∀ (t : State) (a : Nat) (w : Word), (t.setReg a w).eng e = t.eng e := fun _ _ _ => rfl
  rw [this, eng_setEng_same]

theorem issued_eng_other (s : State) {e f : Nat} (h : f ≠ e) : (s.issued e).eng f = s.eng f := by
  unfold issued modEng addCnt
  exact eng_setEng_other s _ h

/-- An instruction that changes only its engine's record and goes on retires so. -/
theorem retires_of_put {s : State} {i : Instr} {e : Nat} {g : Engine → Engine}
    (hx : exec i s = .next (((s.issued e).modEng e g).settle e)) (hq : s.quiet e = true)
    (hw : (g (s.atIssue e)).wait = none) (hr : (g (s.atIssue e)).st = .run)
    (hp : (g (s.atIssue e)).stopPending = false) (hd : (g (s.atIssue e)).dbg = (s.atIssue e).dbg) :
    s.retires i e g := by
  obtain ⟨-, -, -, -, h5, h6, h7, h8, h9, h10, -, -⟩ := quiet_parts hq
  have hm : ((s.issued e).modEng e g).eng e = g (s.atIssue e) := by
    unfold modEng; rw [eng_setEng_same, issued_eng]
  refine ⟨(s.issued e).modEng e g, ?_, ⟨?_, ?_, ?_, ?_⟩, hm⟩
  · rw [hx]
    congr 1
    apply settle_idle
    · rw [hm]; exact hw
    · rw [hm]; exact hp
    · rw [hm]; exact hr
    · rw [hm, hd]; exact h6
    · rw [hm, hd]; exact h7
    · rw [hm, hd]; exact h8
  · simp only [modEng, setEng, issued, addCnt, setTick, setReg]
  · intro f hf
    unfold modEng
    rw [eng_setEng_other _ _ hf, issued_eng_other s hf]
  · intro a ha
    show (s.issued e).reg a = s.reg a
    unfold issued
    rw [reg_addCnt, if_neg ha]
    rfl
  · show (s.issued e).reg _ = _
    unfold issued
    rw [reg_addCnt, if_pos rfl]
    rfl

end State

end Sys2Proof.Machine
end

