-- ==== Sys2Proof/Laws/FabricCell.lean ====
section
/-! SUPPORT. A carry chain over the XOR of two words adds them, and a Spine with at most one driver changes no bit. -/

namespace Sys2Proof.Machine.FabricCell

/-- The value of bits, the first least significant. -/
def value : List Bool → Nat
  | [] => 0
  | b :: bs => b.toNat + 2 * value bs

/-- The cells of an adder: O6 is the XOR of the operand bits and I5 one of them. -/
def adder (xs ys : List Bool) : List (Bool × Bool) := List.zipWith (fun x y => (x != y, x)) xs ys

theorem chain_length (c : Bool) (cells : List (Bool × Bool)) : (chain c cells).1.length = cells.length := by
  induction cells generalizing c with
  | nil => rfl
  | cons d ds ih => simp [chain, ih]

theorem adder_adds (c : Bool) (xs ys : List Bool) (h : xs.length = ys.length) :
    value (chain c (adder xs ys)).1 + 2 ^ xs.length * (chain c (adder xs ys)).2.toNat = value xs + value ys + c.toNat := by
  induction xs generalizing c ys with
  | nil => cases ys with
    | nil => simp [adder, chain, value]
    | cons y ys => simp at h
  | cons x xs ih => cases ys with
    | nil => simp at h
    | cons y ys =>
      have e := ih (carryOut (x != y) x c) ys (by simpa using h)
      simp only [adder, List.zipWith_cons_cons, chain, value, List.length_cons, Nat.pow_succ,
        Nat.mul_comm (2 ^ _) 2, Nat.mul_assoc] at e ⊢
      cases x <;> cases y <;> cases c <;> simp [sumOut, carryOut] at e ⊢ <;> omega

theorem spineClock_single (ds : List SpineDriver) (h : (ds.filter SpineDriver.drives).length ≤ 1) :
    (spineClock ds).2 = ds.map (fun d => d.cont) := by
  unfold spineClock
  split
  · rfl
  · rfl
  · rename_i h1 h2
    match hm : ds.filter SpineDriver.drives with
    | [] => exact absurd hm h1
    | [d] => exact absurd hm (h2 d)
    | _ :: _ :: _ => simp [hm] at h

end Sys2Proof.Machine.FabricCell
end

