-- ==== Sys2Proof/Laws/Gatehouse.lean ====
section
/-!
SUPPORT. What the rows of opcodes, of register accesses and of events do, each said once.
-/
namespace Sys2Proof.Machine

open Sys2Proof State

/-- The row of an opcode whose packet the Gatehouse carries out. -/
theorem cmdRow_runs {s : State} {op : Nat} {h : Hdr} {ws : List Word} (act : State → State)
    (hr : s.runs op h ws = true) : cmdRow op h ws s act = .next (act s) := by
  unfold State.runs at hr
  simp only [Bool.and_eq_true, Bool.not_eq_true', decide_eq_true_eq] at hr
  obtain ⟨⟨⟨h1, h2⟩, h3⟩, h4⟩ := hr
  unfold cmdRow
  simp [h1, h2, h3, h4]

theorem opRow_runs {s : State} {op : Nat} {h : Hdr} {ws : List Word} (f : State → OpRes)
    (hr : s.runs op h ws = true) : opRow op h ws s f = .next (settleOp (f s)) := cmdRow_runs _ hr

/-- The row of an opcode always answers a next state. -/
theorem cmdRow_next (op : Nat) (h : Hdr) (ws : List Word) (s : State) (act : State → State) :
    ∃ t, cmdRow op h ws s act = .next t := by
  unfold cmdRow
  by_cases h1 : s.pwr.held = true
  · exact ⟨s, by simp [h1]⟩
  · simp only [h1, Bool.false_eq_true, if_false]
    generalize (if s.accepted op h ws = true then s else s.judgePacket (packetBytes op h ws)) = s1
    by_cases h2 : s1.accepted op h ws = true
    · simp only [h2, if_true]; exact ⟨_, rfl⟩
    · simp only [h2, Bool.false_eq_true, if_false]; exact ⟨_, rfl⟩

/-- The packet that runs is the one a final reply answers. -/
theorem answered_finish {s : State} {op : Nat} {h : Hdr} {ws : List Word} (hr : s.runs op h ws = true) (st re : Byte)
    (ds : List Word) (hd : st = 0 ∨ st = 3 ∨ st = 4 ∨ ds = []) : (s.finish st re ds).answered op h st re ds := by
  unfold State.runs State.accepted at hr
  simp only [Bool.and_eq_true, Bool.not_eq_true', decide_eq_true_eq] at hr
  obtain ⟨⟨⟨_, h2⟩, _⟩, _⟩ := hr
  revert h2
  unfold State.answered State.finish
  cases hrun : s.gh.running with
  | none => simp
  | some r =>
    simp only [Bool.and_eq_true, Bool.not_eq_true', decide_eq_true_eq]
    rintro ⟨⟨⟨rfl, rfl⟩, _⟩, _⟩
    refine ⟨by simp, ?_⟩
    rcases hd with rfl | rfl | rfl | rfl <;> simp

/-- A reply given after an effect that leaves the running command alone answers the same packet. -/
theorem answered_of_running {s t : State} {op : Nat} {h : Hdr} {ws : List Word} (hr : s.runs op h ws = true)
    (hg : t.gh.running = s.gh.running) (st re : Byte) (ds : List Word) (hd : st = 0 ∨ st = 3 ∨ st = 4 ∨ ds = []) :
    (t.finish st re ds).answered op h st re ds := by
  unfold State.runs State.accepted at hr
  simp only [Bool.and_eq_true, Bool.not_eq_true', decide_eq_true_eq] at hr
  obtain ⟨⟨⟨_, h2⟩, _⟩, _⟩ := hr
  revert h2
  unfold State.answered State.finish
  rw [hg]
  cases hrun : s.gh.running with
  | none => simp
  | some r =>
    simp only [Bool.and_eq_true, Bool.not_eq_true', decide_eq_true_eq]
    rintro ⟨⟨⟨rfl, rfl⟩, _⟩, _⟩
    refine ⟨by simp, ?_⟩
    rcases hd with rfl | rfl | rfl | rfl <;> simp

/-- The row of an access that its accessor may make. -/
theorem accessRow_may {ok : Bool} {who : Accessor} {write : Bool} {a : Nat} {s : State} (f : State → State)
    (h1 : ok = true) (h2 : Accessor.ok who = true) (h3 : s.mayAccess who write a = true) :
    accessRow ok who write a s f = .next (f s) := by
  unfold accessRow
  simp [h1, h2, h3]

/-- The row of an access answers a next state exactly when what it names exists. -/
theorem accessRow_total (ok : Bool) (who : Accessor) (write : Bool) (a : Nat) (s : State) (f : State → State) :
    ((ok && Accessor.ok who) = true → ∃ t, accessRow ok who write a s f = .next t) ∧
    ((ok && Accessor.ok who) = false → accessRow ok who write a s f = .fault .noSuchUnit) := by
  unfold accessRow
  constructor
  · intro h
    simp only [h, Bool.not_true, Bool.false_eq_true, if_false]
    repeat' split
    all_goals exact ⟨_, rfl⟩
  · intro h
    simp [h]

/-- The row of an event answers a next state exactly when its unit exists. -/
theorem unitEvent_total (ok : Bool) (dt : Nat) (s : State) (f : State → State) :
    (ok = true → ∃ t, unitEvent ok dt s f = .next t) ∧ (ok = false → unitEvent ok dt s f = .fault .noSuchUnit) := by
  unfold unitEvent event
  constructor
  · intro h; simp [h]
  · intro h; simp [h]

/-- The row of an engine instruction answers a next state exactly when its engine and registers exist. -/
theorem instr_total (e : Nat) (regs : List Nat) (s : State) (f : State → State) :
    ((decide (e < 64) && regs.all (fun r => decide (r < 32))) = true → ∃ t, instr e regs s f = .next t) ∧
    ((decide (e < 64) && regs.all (fun r => decide (r < 32))) = false → instr e regs s f = .fault .noSuchUnit) := by
  unfold instr
  constructor
  · intro h
    simp only [Bool.and_eq_true, decide_eq_true_eq] at h
    simp [h]
  · intro h
    rw [Bool.and_eq_false_iff] at h
    rw [if_neg]
    rintro ⟨h1, h2⟩
    simp [h1, h2] at h

end Sys2Proof.Machine
end

