-- ==== Sys2Proof/Laws/LineCode.lean ====
section
/-! SUPPORT. A block of the scramble-and-stuff coding is read as it was sent, with no coding error. -/

namespace Sys2Proof.Machine.LineCode

theorem scramble_scramble (s : BitVec 31) (ps : List Bool) : scramble s (scramble s ps) = ps := by
  induction ps generalizing s with
  | nil => rfl
  | cons p ps ih =>
    show ((p != keyBit s) != keyBit s) :: scramble (nextSeed s) (scramble (nextSeed s) ps) = p :: ps
    rw [ih]
    cases p <;> cases keyBit s <;> rfl

/-- Bits scrambled and stuffed from the place a receiver stands at are read back as they were, with no coding error, and what
follows them is left to read (R169, R172, R173). -/
theorem unstuff_stuff (ps : List Bool) : ∀ (l : RxLine) (rest : List Bool),
    l.bits = stuff l.run l.last (scramble l.seed ps) ++ rest →
    ∃ m, unstuff ps.length l = some (ps, 0, m) ∧ m.bits = rest := by
  induction ps with
  | nil => intro l rest h; exact ⟨l, rfl, h⟩
  | cons p ps ih =>
    intro l rest h
    have hp : ((p != keyBit l.seed) != keyBit l.seed) = p := by cases p <;> cases keyBit l.seed <;> rfl
    unfold scramble stuff at h
    by_cases hk : runOn l.run l.last (p != keyBit l.seed) = 31
    · rw [if_pos hk] at h
      obtain ⟨m, h1, h2⟩ := ih { l with
        bits := stuff 1 (!(p != keyBit l.seed)) (scramble (nextSeed l.seed) ps) ++ rest,
        seed := nextSeed l.seed, run := 1, last := !(p != keyBit l.seed) } rest rfl
      refine ⟨m, ?_, h2⟩
      show unstuff (ps.length + 1) l = _
      unfold unstuff
      rw [h]
      simp [hk, h1]
    · rw [if_neg hk] at h
      obtain ⟨m, h1, h2⟩ := ih { l with
        bits := stuff (runOn l.run l.last (p != keyBit l.seed)) (p != keyBit l.seed) (scramble (nextSeed l.seed) ps) ++ rest,
        seed := nextSeed l.seed, run := runOn l.run l.last (p != keyBit l.seed), last := p != keyBit l.seed } rest rfl
      refine ⟨m, ?_, h2⟩
      show unstuff (ps.length + 1) l = _
      unfold unstuff
      rw [h]
      simp [hk, h1]

end Sys2Proof.Machine.LineCode
end

