-- ==== Sys2Proof/Laws/UserLogic.lean ====
section
/-!
SUPPORT. What the operations of the user logic can do: bit vectors built bit by bit, the rows of the table of terraces, one edge.
-/
namespace Sys2Proof.Machine

open Sys2Proof

theorem bits_foldr_testBit (f : Nat → Bool) (n k w : Nat) :
    ((List.range' k w).foldr (fun j m => 2 * m + (f j).toNat) 0).testBit n = (decide (n < w) && f (k + n)) := by
  induction w generalizing k n with
  | zero => simp
  | succ w ih =>
    rw [List.range'_succ, List.foldr_cons]
    cases n with
    | zero => cases f k <;> simp [Nat.testBit_zero, *] <;> omega
    | succ n =>
      rw [Nat.testBit_succ]
      have hdiv : (2 * (List.range' (k + 1) w).foldr (fun j m => 2 * m + (f j).toNat) 0 + (f k).toNat) / 2 =
          (List.range' (k + 1) w).foldr (fun j m => 2 * m + (f j).toNat) 0 := by cases f k <;> simp <;> omega
      rw [hdiv, ih]
      have : k + 1 + n = k + (n + 1) := by omega
      rw [this]
      simp

/-- Bit i of a vector built bit by bit. -/
theorem bitsOf_getLsbD (w i : Nat) (f : Nat → Bool) : (bitsOf w f).getLsbD i = (decide (i < w) && f i) := by
  unfold bitsOf
  rw [BitVec.getLsbD_ofNat, List.range_eq_range', bits_foldr_testBit]
  simp

namespace State

@[simp] theorem user_setUser_same (s : State) (t : Nat) (u : UserLogic) : (s.setUser t u).user t = u :=
  Table.get_set_same _ _ t u

theorem user_setUser_other (s : State) {t v : Nat} (u : UserLogic) (h : v ≠ t) : (s.setUser t u).user v = s.user v :=
  Table.get_set_other _ s.fab u h

@[simp] theorem setUser_regs (s : State) (t : Nat) (u : UserLogic) : (s.setUser t u).regs = s.regs := rfl
@[simp] theorem setUser_terraces (s : State) (t : Nat) (u : UserLogic) : (s.setUser t u).terraces = s.terraces := rfl
@[simp] theorem setUser_bram (s : State) (t : Nat) (u : UserLogic) : (s.setUser t u).bram = s.bram := rfl
@[simp] theorem setUser_log (s : State) (t : Nat) (u : UserLogic) : (s.setUser t u).log = s.log := rfl
@[simp] theorem fabricEdge_regs (s : State) (e : List Nat) : (s.fabricEdge e).regs = s.regs := by
  unfold fabricEdge; dsimp only; split <;> rfl
@[simp] theorem fabricEdge_bram (s : State) (e : List Nat) : (s.fabricEdge e).bram = s.bram := by
  unfold fabricEdge; dsimp only; split <;> rfl
@[simp] theorem fabricEdge_log (s : State) (e : List Nat) : (s.fabricEdge e).log = s.log := by
  unfold fabricEdge; dsimp only; split <;> rfl
@[simp] theorem fabricEdge_mode (s : State) (e : List Nat) : (s.fabricEdge e).mode = s.mode := by
  unfold fabricEdge; dsimp only; split <;> rfl

/-- A hard port is clocked where every line of a started terrace runs. -/
theorem portClocked_of_lines (s : State) (t h : Nat) (hu : s.terrUp t = true) (hs : (s.terr t).started = true)
    (hl : ∀ l, l < 4 → s.lineRuns t l = true) : s.portClocked t h = true := by
  unfold portClocked lineOf
  rw [hu, hs, hl _ (Nat.mod_lt _ (by omega))]
  rfl

/-- Every part of a terrace is on one of its four lines. -/
theorem lineOf_lt (s : State) (t : Nat) (c : FabClock) : s.lineOf t c < 4 := Nat.mod_lt _ (by omega)

/-- A Spine without exactly one driver reads 0 (R286, R288). -/
theorem wire_spine_none (n : Nat) (s : State) (t m : Nat) (h : (s.spineOn (t / 32) m).length ≠ 1) :
    wire (n + 1) s t (.source (.spine m)) = false := by
  unfold wire
  dsimp only
  generalize s.spineOn (t / 32) m = l at h
  match l, h with
  | [], _ => rfl
  | [_], h => simp at h
  | _ :: _ :: _, _ => rfl

end State

/-! ### Scrubbers and held bays -/

/-- One interval later a scrubber reads the frame that was next (R491). -/
theorem Scrubber.after_interval {p i : Nat} (hp : p < 9216) (hi : 0 < i) :
    ({ next := p } : Scrubber).after i i false = { next := (p + 1) % 9216, since := 0, reads := some p } := by
  unfold Scrubber.after
  simp [Nat.div_self hi, hp]
  omega

/-- Before its next read is due a scrubber reads nothing. -/
theorem Scrubber.after_short {c : Scrubber} {ps i : Nat} (skip : Bool) (h : c.since + ps < i) :
    (c.after ps i skip).reads = none ∧ (c.after ps i skip).since = c.since + ps := by
  unfold Scrubber.after
  simp [Nat.div_eq_of_lt h, Nat.mod_eq_of_lt h]

/-- An input whose wire comes from an output that carries a bit of the stimulus word reads that bit (R281, R524). -/
theorem State.inputBit_stim (s : State) (t : Nat) {i : FabInput} {j k : Nat}
    (h2 : Config.stage2 (s.terr t).comb i = .stage1 j) (h1 : Config.stage1 (s.terr t).comb j = .stim k) :
    s.inputBit t i = bit (s.reg 0xE80060) k := by
  unfold State.inputBit
  rw [show State.wireFuel = (2 ^ 32 - 2) + 1 + 1 from rfl]
  unfold State.wire
  dsimp only
  rw [h2]
  dsimp only
  rw [h1]
  unfold State.wire
  rfl

/-- A bay is held exactly by the repair of the terrace while its hold lasts, or by a lost frame of its own (R492, R493). -/
theorem Terrace.holds_iff (x : Terrace) (now b : Nat) :
    x.holds now b = true ↔ (x.heldBay = some b ∧ now < x.heldUntil) ∨ ∃ f ∈ x.lost, f.bay = b := by
  simp [Terrace.holds]

/-- A bay taken into a hold keeps the outputs it has now (R309). -/
theorem State.userHold_kept (s : State) (t b : Nat) : ((s.userHold t b).user t).kept b =
    (List.range 256).map (fun k => s.sourceBit t (.cell (64 * b + k / 4) (k % 4))) := by
  unfold State.userHold State.modUser State.setUser State.user UserLogic.kept
  simp only [Table.get_set_same]

end Sys2Proof.Machine
end

