-- ==== Sys2Proof/Tests/Slice0.lean ====
section
/-!
SUPPORT. Tests: terms the well-formedness check refuses, for every statement with hypotheses concrete states and operands
that meet those of its clauses, and single steps with values taken from the manual's examples and tables.
-/
namespace Sys2Proof.Tests

open Sys2Proof Sys2Proof.Machine Sys2Proof.Machine.State

/-! ### Small states -/

/-- A packet header with tag 1 for the device. -/
def hdr : Hdr := { flags := 0, tag := 1, target := 0 }

/-- The device after reset with a ready Gatehouse. -/
def dev : State := { State.reset with gh := { ready := true } }

/-- A state in which the Gatehouse has accepted a packet. -/
def pkt (s : State) (op : Nat) (ws : List Word) : State :=
  { s with gh := { s.gh with running := some { op := op, hdr := hdr, params := ws, crc := 0 } } }

/-- Registers set over a state. -/
def regs (s : State) (l : List (Nat × Word)) : State := l.foldl (fun s e => s.setReg e.1 e.2) s

/-- The device with the engines' PLL locked and its output on. -/
def clocked : State := regs (dev.setPll 14 { running := true, lock := true }) [(aPll 14 + 0x10, 1)]

/-- Engine 0 runs with a record. -/
def run0 (x : Engine) : State := { clocked with engines := [(0, { x with st := .run })] }

/-- The timebase runs. -/
def tbDev : State := regs dev [(0x30000, 1)]

/-- The device in SERVICE at level 2. -/
def svc : State := { dev with mode := .service, gh := { dev.gh with auth := 2 } }

/-- SERVICE with the timebase enabled. -/
def tbs : State := regs svc [(0x30000, 1)]

/-! ### Ill-formed commands -/

theorem test_wf_refuses_engine_numbers : ([.add 64 0 0 0, .ldw 64 0 0 0, .lui 64 0 0, .beq 64 0 0 0, .j 64 0, .jr 64 0,
    .mac 64 0 0 0 0, .amov 64 0 0 0 false, .rpt 64 false 1 1, .pub 64 0, .interruptEntry 64 0, .aexp 64 0 0] :
    List Instr).all (fun i => !i.wf) = true := by decide

theorem test_wf_refuses_register_numbers : ([.add 0 32 0 0, .add 0 0 32 0, .srai 0 0 0 32, .ldw 0 0 32 0, .stw 0 32 0 0,
    .lui 0 32 0, .bne 0 32 0 0, .bgeu 0 0 32 0, .mtc 0 32 0, .mfc 0 32 0, .mac 0 0 32 0 0, .mac 0 0 0 32 0, .afrom 0 0 32,
    .rpt 0 true 1 32, .pub 0 32] : List Instr).all (fun i => !i.wf) = true := by decide

theorem test_wf_refuses_accessors : ([.registerWrite (.engine 64) 0 0, .rcRead (.fabric 128) 0, .dspPostWrite (.engine 64) 0,
    .pllEnable (.fabric 128) 0 0, .drop (.engine 64) 0, .queueEnable (.engine 64) 0 0, .blvHalt (.engine 64) 0 0,
    .stampRecordRead (.fabric 128) 0, .drWinWrite (.engine 64) 0] : List Instr).all (fun i => !i.wf) = true := by decide

theorem test_wf_refuses_register_rows : ([.crystalInputEnable .host 2 0, .pllEnable .host 16 0, .chCtrlEnable .host 144 0,
    .chLqWinWrite .host 0 8 0, .cisWrDataWrite .host 272 0, .queueEnable .host 65536 0, .orchardEnable .host 4 0,
    .orcDqTagRead .host 0 16, .threadEnable .host 8192 0, .acceptWrite .host 8 0, .engIrqSetWrite .host 64 0,
    .trainingStart .host 16, .blvStep .host 2 0, .rwStatClear .host 5, .stampRecordRead .host 208] :
    List Instr).all (fun i => !i.wf) = true := by decide

theorem test_wf_refuses_events : ([.launchPortFrame 128 0 0 [], .launchPortFrame 0 144 0 [], .flushDone 272 0,
    .framePulse 2 0 0, .stampPinEdge 64 {} 0, .cairnFire 4096 0, .ladderTimeout 144 0, .markSend 144 0,
    .cisternFabricWrite 143 [] false 0, .orchardDequeue 128 0 0, .orchardDequeue 0 65536 0, .orchardLaunchMove 65536 0,
    .pageSpill 4 0, .heartbeatMissed 0 16 0, .fenceAcknowledge 0x0C08 0, .memoryFillEnd 0x0404 0] :
    List Instr).all (fun i => !i.wf) = true := by decide

theorem test_wf_refuses_more_events : ([.blockMemoryRead 0 ⟨32, false⟩ 0 [] 0, .blockMemoryWrite 0 ⟨0, true⟩ 1024 [] .alone 0,
    .windowTimeout 128 0, .clockLineEnable 0 4 true 0, .deserialiserSlip 416 0, .vioRecovery 13 0 0, .vioRecovery 0 6 0,
    .crystalWindowEnd 2 0 0, .pllLock 16 0, .stagingDecision 8 0, .contextWritebackEnd 8192 0, .refresh 0 16 true 0,
    .initDone 16 0, .keySlotUncorrectable 64 0, .configScrubRead 0 false 512 0 0 0 .clean 0,
    .configScrubRead 0 false 0 9 0 0 .clean 0, .configScrubRead 0 false 0 0 63 0 .clean 0,
    .configScrubRead 0 false 0 0 0 39 .clean 0, .bramScrubRead 0 0 1024 .clean 0] :
    List Instr).all (fun i => !i.wf) = true := by decide

theorem test_wf_refuses_places : ([.patrolScrubRead (.scratchpad 0 0x40000) (.reads .clean) 0, .patrolScrubRead (.overlayStore 0) (.struck .corrected) 0,
    .patrolScrubRead (.cairnEntry 4096 0) (.reads .clean) 0, .patrolScrubRead (.threadEntry 0 8) (.reads .clean) 0, .tracePacket 7 0 0 0 0 0, .tracePacket 0 1 0 0 0 0, .scanRound 24 0,
    .conversionResult 55 false [] 0, .referenceConversion 2 0 true 0, .gatewayLinkLoss (.gateway 4) 0,
    .gatewayLinkLoss (.interRidge 6) 0, .spineContention 4 0 [] 0, .spineContention 0 128 [] 0, .spineContention 0 0 [32] 0,
    .ridgewayTimeout 0x20D 0x200 0, .fenceTimeout 0x0400 0x7E 0, .eyeScanEnd 36 false [] 0] :
    List Instr).all (fun i => !i.wf) = true := by decide

theorem test_wf_accepts : ([.add 63 31 31 31, .rpt 0 false 1 4095, .paramRead hdr 0, .cairnFire 4095 0, .pllLock 15 0,
    .cisternFabricWrite 144 [] false 0, .memoryFillEnd 0x1423 0, .scanRound 54 0, .idcode, .queueDisable (.engine 63) 65535 0] :
    List Instr).all Instr.wf = true := by decide

/-! ### Hypotheses met: the port and the engines -/

theorem witness_PacketJudgement : dev.pwr.held = false ∧ dev.gh.ready = true ∧ dev.gh.running = none ∧
    (pkt dev 1 []).gh.running ≠ none ∧ hdr.tag ≠ 0 ∧ hdr.flags &&& 0xFE = 0 ∧
    dev.gh.cache.find? (fun c => decide (c.tag = hdr.tag)) = none ∧ dev.generalCheck 1 hdr [] = none ∧
    dev.generalCheck 0x42 hdr [0, 0] = some (0x02, 0x05) ∧ (pkt dev 1 []).pwr.held = false := by decide

/-- A replay cache that holds the reply of a packet. -/
def cached (op : Nat) (ws : List Word) : State :=
  { dev with gh := { dev.gh with cache := [{ tag := 1, reply := {}, crc :=
      (crc32cWords ([at_ 24 op ||| at_ 16 hdr.flags.toNat ||| w32 hdr.tag.toNat, at_ 16 ws.length ||| w32 hdr.target.toNat] ++ ws)) }] } }

set_option maxRecDepth 20000 in
theorem witness_ReplayHasNoEffect : (cached 0x7E []).pwr.held = false ∧ (cached 0x7E []).gh.ready = true ∧
    (cached 0x7E []).gh.running = none ∧
    (cached 0x7E []).gh.cache.find? (fun c => decide (c.tag = hdr.tag)) = (cached 0x7E []).gh.cache.head? ∧
    (cached 0x7E []).gh.cache.length = 1 ∧ (cached 0x11 [0, 0]).gh.cache.length = 1 ∧ hdr.tag ≠ 0 ∧
    hdr.flags &&& 0xFE = 0 := by decide

theorem witness_ReadStatusTransaction : dev.pwr.held = false ∧ (pkt dev 0x10 [0x10000]).runs 0x10 hdr [0x10000] = true ∧
    (pkt dev 0x10 [0x10004]).runs 0x10 hdr [0x10004] = true := by decide

theorem witness_BadTransactionCode : dev.pwr.held = false ∧
    (0x00 : Byte) ∉ ([0x02, 0x32, 0x0B, 0x6B, 0x05, 0x65] : List Byte) := by decide

theorem witness_RegisterInstructions : (run0 {}).quiet 0 = true ∧ (run0 { ctx := { pc := 0x3FFFC } }).quiet 0 = true := by decide

theorem witness_LeadingBitCounts : (run0 {}).quiet 0 = true ∧ ((run0 {}).eng 0).acc 0 = 0 ∧
    (∀ k, k < 32 → (((run0 {}).eng 0).g 0).getMsbD k = (((run0 {}).eng 0).g 0).getMsbD 0) ∧
    (∀ k, k < 40 → (((run0 {}).eng 0).acc 0).getMsbD k = (((run0 {}).eng 0).acc 0).getMsbD 0) ∧
    ((1 : Word).getMsbD 31 ≠ (1 : Word).getMsbD 0 ∧ ∀ k, k < 31 → (1 : Word).getMsbD k = (1 : Word).getMsbD 0) := by decide

/-- Engine 0 runs with its last scratchpad word's address in g1, and holds a reservation there. -/
def lastWord : State := run0 { ctx := { g := [(1, 0x3FFF8)] }, reservation := some 0x7FFF }

theorem witness_ScratchpadLoads : lastWord.quiet 0 = true ∧
    (((lastWord.eng 0).g 1 + (0 : BitVec 16).signExtend 32).toNat = 0x3FFF8) ∧ lastWord.spadBadAt 0 0x3FFF8 = false ∧
    lastWord.watchAt 0 0x3FFF8 false = none ∧ lastWord.weakAt (.scratchpad 0 0x3FFF8) ≠ .corrected ∧
    ({ lastWord with weak := [(.scratchpad 0 0x3FFF8, .corrected)] } : State).weakAt (.scratchpad 0 0x3FFF8) = .corrected := by
  decide

theorem witness_ScratchpadStores : lastWord.quiet 0 = true ∧ lastWord.spadBadAt 0 0x3FFF8 = false ∧
    lastWord.watchAt 0 0x3FFF8 true = none ∧ 0x3FFF8 % 8 = 0 := by decide

theorem witness_LockedSequence : lastWord.quiet 0 = true ∧ (lastWord.eng 0).reservation = some (0x3FFF8 / 8) ∧
    ((run0 {}).eng 0).reservation ≠ some (0x3FFF8 / 8) ∧
    (0x40000 ≤ ((lastWord.eng 0).g 1 + (8 : BitVec 16).signExtend 32).toNat) := by decide

theorem witness_WindowAccesses : (run0 { ctx := { g := [(1, 0x80000000)] } }).quiet 0 = true ∧
    (((run0 { ctx := { g := [(1, 0x80030000)] } }).eng 0).g 1 + (0 : BitVec 16).signExtend 32).toNat = 0x80000000 + 0x30000 ∧
    placeOf 0x30000 = some (.timebase, 0) ∧ openTo .timebase false = true ∧
    placeOf (aCis 0) = some (.cistern 0, 0) ∧ openTo (.cistern 0) true = true ∧
    (run0 {}).unacked (pavilionPort 0) < 64 ∧ (run0 {}).portTakes (pavilionPort 0) (portOf .timebase) = true := by decide

theorem witness_BranchesAndJumps : (run0 {}).quiet 0 = true ∧ ((run0 {}).eng 0).atBodyEnd = false ∧
    ((run0 { ctx := { g := [(1, 1), (2, 0xFFFFFFFF)] } }).eng 0).g 1 ≠ ((run0 { ctx := { g := [(1, 1), (2, 0xFFFFFFFF)] } }).eng 0).g 2 ∧
    (0xFFFFFFFF : Word).toInt < (1 : Word).toInt ∧ (1 : Word).toNat < (0xFFFFFFFF : Word).toNat ∧
    ((run0 {}).eng 0).ctx.depth = 0 := by decide

/-- An engine inside one repeat level of body 0x10 to 0x18. -/
def inLoop (pc : Nat) (lc : Word) : Engine := { ctx := { pc := pc, depth := 1, l0 := { lc := lc, ls := 0x10, le := 0x18 } } }

theorem witness_BranchesPopTheLevel : (run0 (inLoop 0x14 2)).quiet 0 = true ∧ (inLoop 0x14 2).atBodyEnd = false ∧
    (inLoop 0x14 2).inBody 0 0x14 = true ∧ (inLoop 0x14 2).inBody 0 0x1C = false := by decide

theorem witness_RepeatLevels : (run0 {}).quiet 0 = true ∧ ((run0 {}).eng 0).atBodyEnd = false ∧
    (inLoop 0x18 2).atBodyEnd = true ∧ ((inLoop 0x18 2).level 0).le.toNat = (inLoop 0x18 2).ctx.pc ∧
    1 < ((inLoop 0x18 2).level 0).lc.toNat ∧ ((inLoop 0x18 1).level 0).lc.toNat = 1 ∧ (inLoop 0x14 2).ctx.depth < 3 ∧
    (inLoop 0x14 2).ctx.pc + 4 * 1 ≤ ((inLoop 0x14 2).level 0).le.toNat := by decide

/-- Two address generators in a legal ring of 8 bytes at 0x100 and 0x200. -/
def taps (step : Int) : Engine := { ctx := {
  ag0 := { ptr := 0x100, step := 2, base := 0x100, len := 8 }, ag1 := { ptr := 0x200, step := step, base := 0x200, len := 8 } } }

theorem witness_FilterTap : (run0 (taps 2)).quiet 0 = true ∧ (taps 2).ctx.ag0.bad = false ∧ (taps 2).ctx.ag1.bad = false ∧
    (taps 8).ctx.ag1.bad = true ∧ ({ ptr := 1 } : AddrGen).bad = true ∧ (run0 (taps 2)).spadBadAt 0 0x100 = false ∧
    (run0 (taps 2)).watchAt 0 0x100 false = none ∧ (run0 (taps 2)).watchAt 0 0x102 true = none ∧
    ({ run0 (taps 2) with spadBad := [(32, true)] } : State).quiet 0 = true ∧
    ({ run0 (taps 2) with spadBad := [(32, true)] } : State).spadBadAt 0 0x100 = true ∧
    ({ run0 (taps 2) with spadBad := [(64, true)] } : State).spadBadAt 0 0x100 = false ∧
    ({ run0 (taps 2) with spadBad := [(64, true)] } : State).spadBadAt 0 0x200 = true ∧
    (run0 (taps 2)).weakAt (.scratchpad 0 0x100) ≠ .corrected := by decide

/-- Engine 0 runs thread 5, whose context is saved on YIELD. -/
def threaded : State :=
  (regs (run0 { tvalid := true, thread := 5 }) [(aThread 5, 0x80000000), (aThread 5 + 16, 0x80000000)]).setThread 5
    { st := .running }

theorem witness_ThreadEnds : threaded.quiet 0 = true ∧ (threaded.eng 0).handler = false ∧ (threaded.eng 0).atBodyEnd = false ∧
    (threaded.thread 5).st = .running ∧ (threaded.thread 5).pend = 0 ∧ threaded.thFlowEn 5 = false ∧
    (threaded.eng 0).staged = none ∧ (threaded.eng 0).tvalid = true ∧ threaded.thCtxEn 5 = true ∧
    (run0 { handler := true }).quiet 0 = true := by decide

theorem witness_SystemInstructions : (run0 {}).quiet 0 = true ∧ ((run0 {}).eng 0).stagedReady = false ∧
    (run0 {}).postedOpen 0 = false ∧ (run0 {}).postHeld (.engine 0) = false ∧ (run0 {}).attached 0 = false ∧
    (regs (run0 {}) [(0xE80100, 1)]).attached 0 = true := by decide

theorem witness_FaultsAndTraps : (regs dev [(aEng 0, 0x10)]).rb (aEng 0) 4 = true ∧ dev.rb (aEng 0) 4 = false ∧
    (1 : Word).getLsbD 0 = true ∧ (threaded.eng 0).tvalid = true ∧ (threaded.eng 0).staged = none ∧
    (threaded.thread 5).st = .running := by decide

/-! ### Hypotheses met: dispatcher, Gatehouse, timebase -/

/-- The dispatcher is enabled over it, and thread 5 with a context in scratchpad 0. -/
def dspOn : State := regs svc [(0xC00000, 1), (aThread 5, 0x80000000), (aThread 5 + 8, 0xFF)]

theorem witness_DispatcherEnables : Accessor.ok .host = true ∧ svc.mayAccess .host true (aThread 8191) = true ∧
    svc.thEn 8191 = false ∧ (dspOn.threadCheck 5 0x80000000).1 = 0 ∧ (svc.threadCheck 8191 0xFFFFFFFF).1 ≠ 0 ∧
    dspOn.thEn 5 = true ∧ (dspOn.thread 5).st = .disabled ∧
    ((dspOn.setThread 5 { st := .idle }).thread 5).st = .idle ∧
    ((dspOn.setThread 5 { st := .running }).thread 5).st = .running ∧ svc.mayAccess .host true 0xC00000 = true ∧
    svc.dspEn = false ∧ dspOn.dspEn = true ∧ (dspOn.eng 63).st = .stopped ∧
    ({ dspOn with engines := [(63, { st := .idle })] } : State).mayAccess .host true 0xC00000 = true ∧
    (({ dspOn with engines := [(63, { st := .idle })] } : State).eng 63).st ≠ .stopped := by decide

theorem witness_PostsAndSnapshots : svc.dspEn = false ∧ (dspOn.thread 5).st = .disabled ∧ dspOn.dspEn = true ∧
    ((dspOn.setThread 5 { st := .idle }).thread 5).st = .idle ∧
    (dspOn.setThread 5 { st := .idle }).thFlowEn 5 = false ∧ (dspOn.setThread 5 { st := .running }).thPmax 5 = 0 ∧
    ((regs dspOn [(aThread 5 + 0x18, 0xFFFFFFFF)]).setThread 5 { st := .ready, pend := 1 }).dspEn = true ∧
    dspOn.mayAccess .host true 0xC00010 = true ∧ dspOn.dsp.intake = [] ∧ dspOn.dsp.held = [] ∧ 0 < dspOn.postRoom ∧
    ({ dspOn with tick := { decided := 12 } } : State).postRoom ≤ 0 ∧ dspOn.mayAccess .host true 0xC00014 = true ∧
    bit (2 : Word) 1 = true ∧ bit (1 : Word) 1 = false ∧ dspOn.mayAccess .host true (aPav 7) = true ∧
    dspOn.mayAccess .host true (aEng 63 + 0x28) = true := by decide

/-- Engine 0 waits for the decision of its post to thread 5. -/
def posting : State :=
  { dspOn with engines := [(0, { st := .run, wait := some (.post 1) })],
               dsp := { dspOn.dsp with intake := [{ src := .engine 0, thread := 5, info := 7 }] } }

theorem witness_PostsAndSnapshots_decision : (posting.advance 1).live = true ∧
    (posting.advance 1).dsp.intake = [{ src := .engine 0, thread := 5, info := 7 }] ∧
    ((posting.advance 1).eng 0).wait = some (.post 1) ∧ ((posting.advance 1).eng 0).st = .run ∧
    ((posting.advance 1).eng 0).stopPending = false ∧ ((posting.advance 1).eng 0).dbg.stepping = false ∧
    0 < (posting.advance 1).postRoom ∧ ((posting.advance 1).eng 0).dbg.haltPending = false ∧ ((posting.advance 1).eng 0).dbg.watchHit = none := by decide

/-- Engine 0 runs with inputs 3 and 4 raised and enabled. -/
def irq : State :=
  regs { svc with engines := [(0, { st := .run, ctx := { status := 1 } })] } [(aEng 0 + 0x24, 0x18), (aEng 0 + 0x20, 0x18)]

theorem witness_EngineEvents : (irq.advance 0).live = true ∧ (irq.advance 0).irqInput 0 = some 3 ∧
    (regs irq [(aEng 0 + 0x30, 5)]).rf (aEng 0 + 0x30) 15 0 = 5 ∧ ((regs irq [(aEng 0 + 0x30, 5)]).eng 0).wdog = 0 ∧
    ((regs irq [(aEng 0 + 0x30, 5)]).eng 0).stopPending = false ∧
    ((regs { irq with engines := [(0, { st := .run, wait := some (.post 1), stopPending := true })] } [(aEng 0 + 0x30, 5)]).eng
      0).stopPending = true ∧
    dspOn.dspEn = true ∧
    (∀ k, k < 8 → dspOn.engOpen (8 * 7 + k) = false ∨ dspOn.bestFor (8 * 7 + k) = none) := by decide

/-- Thread 5 is ready and engine 0 may take it. -/
def offer : State :=
  ({ regs svc [(0xC00000, 1), (aPav 0, 1), (aThread 5, 0x80000000), (aThread 5 + 8, 0xFF)] with
       engines := [(0, { st := .idle })], dsp := { levels := [(0, [5])] } } : State).setThread 5 { st := .ready }

theorem witness_EngineEvents_staging : (offer.advance 0).live = true ∧ offer.dspEn = true ∧ offer.engOpen 0 = true ∧
    offer.bestFor 0 = some 5 := by decide

/-- Thread 5 is staged at engine 0, which is idle. -/
def stagedAt (st : EngState) : State :=
  { offer with engines := [(0, { st := st, staged := some (5, {}) })], dsp := { threads := [(5, { st := .staged })] } }

theorem witness_EngineEvents_contexts : ((stagedAt .idle).eng 0).staged = some (5, {}) ∧
    ((stagedAt .run).eng 0).stagedReady = false ∧ ((stagedAt .idle).thread 5).saved = false ∧
    (svc.setThread 8191 { writing := true }).live = true ∧
    ((svc.setThread 8191 { writing := true }).thread 8191).writing = true := by decide

theorem witness_DeviceWatchdog : dev.mayAccess .host true 0x10010 = true ∧ fld (0xFFFF : Word) 15 0 ≠ 0 ∧
    fld (0x10000 : Word) 15 0 = 0 ∧ (pkt dev 0x7E []).runs 0x7E hdr [] = true ∧
    ((regs dev [(0x10010, 10)]).advance 0).pwr.held = false ∧
    fld (((regs dev [(0x10010, 10)]).advance 0).reg 0x10010) 15 0 ≠ 0 ∧
    ((regs dev [(0x10010, 10)]).advance 0).gh.wdog = 0 ∧
    ((regs dev [(0x10010, 10)]).advance 0).log.entries.length < 1024 := by decide

theorem witness_IdentifyAndStatus : (pkt dev 2 []).runs 2 hdr [] = true ∧ (pkt dev 3 []).runs 3 hdr [] = true ∧
    (pkt dev 1 [1, 2]).runs 1 hdr [1, 2] = true ∧
    (pkt { dev with mode := .stop } 1 []).runs 1 hdr [] = true := by decide

theorem witness_RegisterAccess : placeOf 0x14 = some (.device, 0x14) ∧ (placeOf 0x800000).isSome = true ∧
    dev.mayAccess .host true 0x14 = true ∧ dev.paramCheck true [0x14] = 0 ∧ dev.accessError 0x200 .device 0x14 = 0 ∧
    (pkt dev 0x10 [0x14]).runs 0x10 hdr [0x14] = true ∧ (pkt dev 0x11 [0x14, 1]).runs 0x11 hdr [0x14, 1] = true ∧
    (pkt dev 0x12 [0x14, 1, 1]).runs 0x12 hdr [0x14, 1, 1] = true ∧
    (pkt dev 0x13 [0x14, 1]).runs 0x13 hdr [0x14, 1] = true ∧
    (pkt dev 0x14 [0x14, 1]).runs 0x14 hdr [0x14, 1] = true ∧ dev.latched .device 0x2C = none ∧
    dev.mayAccess .host false 0x2C = true := by decide

/-- The domain of pavilion 0 is off. -/
def pavOff : State := { svc with pwr := { svc.pwr with off := [(pavilionId 0, true)] } }

/-- The domain of pavilion 0 is on and fenced. -/
def pavFenced : State := { svc with rw := { svc.rw with fences := [(pavilionId 0, .closed)] } }

theorem witness_AccessesRefused : (pkt dev 0x13 [0, 0]).runs 0x13 hdr [0, 0] = true ∧
    (pkt dev 0x13 [0, 4097]).runs 0x13 hdr [0, 4097] = true ∧ placeOf 0x40000 = some (.cairns, 0) ∧
    (pkt dev 0x14 [0x40000, 1]).runs 0x14 hdr [0x40000, 1] = true ∧ (placeOf (aEng 0)).isSome = true ∧
    (placeOf (aEng 0)).map (fun e => placeDomain e.1) = some (pavilionId 0) ∧ pavOff.domainOn (pavilionId 0) = false ∧
    pavFenced.domainOn (pavilionId 0) = true ∧ pavFenced.fenced (pavilionId 0) = true ∧
    (pkt pavOff 0x11 [BitVec.ofNat 32 (aEng 0), 1]).runs 0x11 hdr [BitVec.ofNat 32 (aEng 0), 1] = true ∧
    (pkt pavFenced 0x11 [BitVec.ofNat 32 (aEng 0), 1]).runs 0x11 hdr [BitVec.ofNat 32 (aEng 0), 1] = true ∧
    (pkt pavOff 0x13 [BitVec.ofNat 32 (aEng 0), 4096]).runs 0x13 hdr [BitVec.ofNat 32 (aEng 0), 4096] = true ∧
    svc.live = true ∧ openTo .device true = false := by decide

theorem witness_LatchedGroups : (placeOf 0x30010).isSome = true ∧ dev.mayAccess .host false 0x30010 = true ∧
    dev.mayAccess .host false 0x31000 = true ∧ dev.mayAccess .host false 0x317E0 = true ∧
    dev.mayAccess .host false (0x100810 + 0x1000 * 143) = true ∧ dev.mayAccess .host false 0x30070 = true := by decide

theorem witness_TimeCommandsNeedTheTimebase : bit (svc.reg 0x30000) 0 = false ∧
    (pkt svc 0x40 [0, 0, 0, 0, 0]).runs 0x40 hdr [0, 0, 0, 0, 0] = true ∧
    (pkt svc 0x42 [0, 0]).runs 0x42 hdr [0, 0] = true ∧
    (pkt { svc with mode := .drain } 0x43 [0, 0, 0]).runs 0x43 hdr [0, 0, 0] = true := by decide

theorem witness_DeviceTimeCorrection : bit (tbs.reg 0x30000) 0 = true ∧
    (pkt tbs 0x42 [0x1FF, 0xBE76C8B5]).runs 0x42 hdr [0x1FF, 0xBE76C8B5] = true ∧
    2 ^ 41 - 1099511627 = 0x1FF * 2 ^ 32 + 0xBE76C8B5 ∧
    (pkt tbs 0x42 [0x200, 0x4189374B]).runs 0x42 hdr [0x200, 0x4189374B] = true ∧
    2 ^ 41 + 1099511627 = 0x200 * 2 ^ 32 + 0x4189374B ∧
    (pkt tbs 0x42 [0x200, 0x4189374C]).runs 0x42 hdr [0x200, 0x4189374C] = true ∧
    (pkt { tbs with mode := .staging } 0x43 [0x80000000, 0, 0x10000]).runs 0x43 hdr [0x80000000, 0, 0x10000] = true ∧
    tbs.tb.devTime < 2 ^ 40 ∧
    (pkt { tbs with mode := .maintain } 0x43 [0, 0x3B9A, 0xC9FFFFFF]).runs 0x43 hdr [0, 0x3B9A, 0xC9FFFFFF] = true := by decide

/-- The system PLL locked on a stable crystal. -/
def refDev : State := { dev with gh := { ready := true, auth := 2 }, clk := { dev.clk with plls := [(15, { lock := true })], xa := { stable := true } } }

theorem witness_TimebaseControl : refDev.mayAccess .host true 0x30000 = true ∧ bit (refDev.reg 0x30000) 0 = false ∧
    bit (1 : Word) 15 = false ∧ fld (1 : Word) 5 4 = fld (refDev.reg 0x30000) 5 4 ∧ (refDev.pll 15).lock = true ∧
    refDev.refStable (refDev.pllOn 15) = true ∧ (dev.pll 15).lock = false ∧ bit (tbDev.reg 0x30000) 0 = true ∧
    tbDev.mode = .boot ∧ tbs.mode ≠ .boot ∧ tbs.mode ≠ .staging ∧
    ({ tbs with tb := { tbs.tb with inA := { qualified := true } } } : State).choose 1 = some 0 ∧
    ({ tbs with tb := { tbs.tb with inB := { qualified := true } } } : State).choose 3 = some 1 ∧
    tbs.choose 1 = none ∧
    (regs { tbs with tb := { tbs.tb with inUse := some 0 } } [(0x30000, 0x11)]).tb.inUse ≠ none ∧
    tbs.sfArmOk tbs.tb.inUse = false ∧
    ({ tbs with tb := { tbs.tb with inUse := some 0, loop := .tracking, inA := { qualified := true, lastMarker := some 0 } } } : State).sfArmOk (some 0) = true := by decide

/-- Input A is watched: qualified as given, its last rising edge at time 0. -/
def watched (q : Bool) (absent time : Nat) : State :=
  let a : FrameInput := { qualified := q, lastRise := some 0, run := 63, absent := absent }
  { tbs with now := time, tb := { tbs.tb with watched := true, inUse := if q then some 0 else none, inA := a } }

theorem witness_FramePulses : ((watched false 0 125020000).advance 0).live = true ∧
    ((watched false 0 125020000).advance 0).tb.watched = true ∧
    ((watched false 0 125020000).advance 0).tb.inA.qualified = false ∧
    ((watched false 0 125020000).advance 0).now - 20 * 1000 = 125000000 ∧ tbs.tb.watched = false ∧
    ((watched true 0 100100000).advance 0).tb.inA.qualified = true ∧
    ((watched true 0 100100000).advance 0).tb.inUse = some 0 ∧
    ((watched true 0 100100000).advance 0).now - 100 * 1000 + 1000000 < 125000000 ∧
    ((watched true 2 376000000).advance 0).now = (2 + 1) * 125000000 + 1000000 ∧
    ((watched true 2 376000000).advance 0).inQual 1 = false := by decide

theorem witness_StampPins : bit (svc.reg (0x31800 + 4 * 63)) 0 = false ∧
    bit ((regs svc [(0x31800, 0xF)]).reg 0x31800) 0 = true ∧ bit ((regs svc [(0x31800, 0xF)]).reg 0x31800) 2 = true ∧
    bit ((regs svc [(0x31800, 0xF)]).reg 0x31800) 3 = true ∧ svc.pinLvds (96 * (63 / 16) + 63 % 16) = false ∧
    (svc.stampSrc 63).queue.length < 4 := by decide

/-- Cairn 4095 is set to fire a capture action of kind 4 at the present position. -/
def cairn (c : Cairn) : State := { tbs with cairns := [(4095, c)] }

theorem witness_CairnsAreSetAndCancelled : bit (tbs.reg 0x30000) 0 = true ∧
    (pkt tbs 0x40 [4095, 1, 0, 0x40000000, 0]).runs 0x40 hdr [4095, 1, 0, 0x40000000, 0] = true ∧
    (pkt tbs 0x40 [0xFFFFFFFF, 1, 0, 0x40000000, 0]).runs 0x40 hdr [0xFFFFFFFF, 1, 0, 0x40000000, 0] = true ∧
    (tbs.cairn 0).free = true ∧ (tbs.cairn 4095).free = true ∧
    (tbs.setCairn 4095 { sf := 1, fp := 0, act := 0x40000000, rep := 0 }).cairnRefusal 4095 = 0 ∧
    fld (0x00000000 : Word) 31 28 = 0 ∧
    (pkt tbs 0x40 [4096, 1, 0, 0x40000000, 0]).runs 0x40 hdr [4096, 1, 0, 0x40000000, 0] = true ∧
    (pkt tbs 0x41 [4095]).runs 0x41 hdr [4095] = true ∧ ((cairn { act := 0x40000000 }).cairn 4095).free = false ∧
    ((cairn { act := 0x40000000, committed := true }).cairn 4095).committed = true ∧
    (cairn { act := 0x40000000 }).cairnBad 4095 = false ∧
    ({ cairn { act := 0x40000000 } with weak := [(.cairnEntry 4095 3, .uncorrectable)] } : State).cairnBad 4095 = true := by
  decide

theorem witness_CairnsFire : ((cairn { act := 0x40000000, sf := 0 }).advance 0).live = true ∧
    ((cairn { act := 0x40000000 }).advance 0).tbOn = true ∧
    ((cairn { act := 0x40000000, armedAll := true }).cairn 4095).kind = 4 ∧
    ((cairn { act := 0x40000000 }).advance 0).endedNow 4095 = false ∧
    ((cairn { act := 0x40000000 }).advance 0).duesBefore 4095 = [] ∧
    reached ((cairn { act := 0x40000000 }).advance 0).tb.fp ((cairn { act := 0x40000000 }).cairn 4095).pos = true ∧
    (cairn { act := 0x40000000, armedAll := true }).targetsOut 4095 = 0 ∧
    reached (tbs.advance 0).tb.fp (({ sf := 1 } : Cairn).pos) = false ∧
    ((cairn { act := 0x40000000, armedAll := false }).cairn 4095).binds = false ∧
    ((cairn { act := 0x20000000 }).cairn 4095).binds = true ∧
    ((cairn { act := 0x20000000 }).cairn 4095).bound = false ∧ (cairn { act := 0x40000000 }).armDue 4095 = true ∧
    (cairn { act := 0x40000000 }).commitDue 4095 = true ∧
    ((cairn { act := 0x30000000, armedAll := true }).cairn 4095).kind = 3 ∧
    pinCairn ((cairn { act := 0x30000000 }).pinNext 0) = false ∧
    pinCairn ((({ cairn { act := 0x30000000 } with pins := [(0, { configured := true, cfg := 0x10000000 })] } : State)).pinNext 0) = true := by
  decide

/-! ### Hypotheses met: lanes, channels, Cisterns, Orchard, Ridgeway -/

/-- The device in SERVICE with lane 143 as given. -/
def laneIs (x : Lane) : State := { svc with lanes := [(143, x)] }

/-- The same over registers. -/
def laneRegs (l : List (Nat × Word)) (x : Lane) : State := { regs svc l with lanes := [(143, x)] }

theorem witness_LaneCommands : (pkt svc 0x33 [144, 1, 0]).runs 0x33 hdr [144, 1, 0] = true ∧
    bit (svc.reg (aLane 143)) 13 = false ∧
    (pkt (laneRegs [(aLane 143, 0x2000)] {}) 0x33 [143, 63, 1]).runs 0x33 hdr [143, 63, 1] = true ∧
    bit ((laneRegs [(aLane 143, 0x2000)] {}).reg (aLane 143)) 13 = true ∧
    (pkt svc 0x34 [143, 0, 0, 40]).runs 0x34 hdr [143, 0, 0, 40] = true ∧ State.axisOk 0xE01F0001 (-32) 31 = false ∧
    State.axisOk 0xF10F0001 (-32) 31 = true ∧ State.axisOk 0xF00F0001 (-63) 63 = true ∧ (svc.lane 143).lock = false ∧
    ((laneIs { lock := true, st := .hold }).lane 143).lock = true ∧
    ((laneIs { lock := true, st := .hold }).lane 143).st = .hold ∧ svc.scan 35 = none ∧
    (({ svc with scans := [(35, some ⟨143, 0, 0, 16, 0, 0⟩)] } : State).scan 35).isSome = true ∧
    (pkt { svc with mode := .staging } 0x35 [143, 3]).runs 0x35 hdr [143, 3] = true ∧ svc.lnLoopStep 143 ≤ 10 ∧
    svc.inService 143 = false ∧ (laneRegs [(aCh 143, 1)] { st := .run }).inService 143 = true ∧
    ((laneIs { st := .loop, loopReturn := .hold }).lane 143).st = .loop ∧
    (pkt svc 0x36 [144, 0]).runs 0x36 hdr [144, 0] = true ∧ (pkt svc 0x36 [143, 11]).runs 0x36 hdr [143, 11] = true ∧
    svc.lnMax 143 < 11 ∧ (pkt svc 0x36 [143, 0]).runs 0x36 hdr [143, 0] = true ∧
    bit ((laneIs { heard := true, cap := 0x00010000 }).lane 143).cap (16 + 0) = true ∧ (svc.lane 143).st = .off ∧
    svc.lnFixed 143 = false ∧ (laneRegs [(aLane 143, 0x400000)] { st := .announce }).lnFixed 143 = true := by decide

/-- A capability word of kind 1 with rung 5's code. -/
def goodCap : Word := 0x10000000

theorem witness_LadderEvents : (svc.advance 0).live = true ∧ svc.ladderDue 143 = svc ∧
    (laneIs { st := .announce }).ladderDue 143 = laneIs { st := .announce } ∧ svc.domainOn (quadId 35) = true ∧
    crc8 goodCap = crc8 goodCap ∧ 1 ≤ goodCap.toNat / 2 ^ 28 ∧ bit goodCap 27 = false ∧ svc.lnFixed 143 = false ∧
    ((laneIs { st := .announce, lock := true, count := 15 }).lane 143).further = none ∧
    fld (goodCap ||| 0x5000 : Word) 15 12 = 5 ∧
    (({ laneIs { st := .agree } with now := 2000000000 } : State).lane 143).enteredAt + 2000000000 ≤ 2000000000 ∧
    (({ laneIs { st := .train } with now := 8000000000 } : State).advance 0).live = true ∧
    ((laneIs { st := .switch, further := none }).lane 143).synth = false ∧
    ((laneIs { st := .announce, further := some 0 }).lane 143).further = some 0 ∧
    ((laneIs { st := .agree, further := some 0, prop := some 3 }).lane 143).prop = some 3 ∧
    ({ laneIs { st := .announce } with now := 100000000000 } : State).now = 0 + 100000000000 ∧
    (laneIs { st := .verify, count := 15 }).ladderDue 143 = laneIs { st := .verify, count := 15 } ∧
    (({ laneIs { st := .switch } with clk := { plls := [(11, { lock := true })] } } : State).pll (8 + 143 / 36)).lock = true ∧
    (laneIs { st := .train, count := 256 }).ladderDue 143 = laneIs { st := .train, count := 256 } ∧
    (laneRegs [(aCh 143, 1)] { st := .run }).inService 143 = true ∧
    ((laneIs { lock := true }).lane 143).alignStart = 0 ∧
    bitsPs (1024 * 80) 0 ≤ ({ laneIs { lock := true } with now := 10 ^ 12 } : State).now ∧
    ({ svc with scans := [(35, some ⟨143, 0, 0, 16, 0, 0⟩)] } : State).scan 35 = some ⟨143, 0, 0, 16, 0, 0⟩ ∧
    State.scanPoints ⟨143, 0, 0, 16, 0, 0⟩ = [(5 : Nat)].length := by decide

/-- Channel 143 as given, over registers; its lane runs and its quad's block clock stands. -/
def chanIs (l : List (Nat × Word)) (y : Lane) (x : Channel) : State :=
  { regs svc l with lanes := [(143, y)], chans := [(143, x)] }

theorem witness_ChannelControl : (pkt svc 0x30 [143, 10, 0xFF]).runs 0x30 hdr [143, 10, 0xFF] = true ∧
    svc.chEn 143 = false ∧ (svc.chCheck 143 (putBit (svc.reg (aCh 143)) 0 true)).1 ≠ 0 ∧ svc.firesFirst (aCh 143) = [] ∧
    (pkt svc 0x30 [144, 0, 0]).runs 0x30 hdr [144, 0, 0] = true ∧ (pkt svc 0x31 [144, 0]).runs 0x31 hdr [144, 0] = true ∧
    (pkt svc 0x32 [144]).runs 0x32 hdr [144] = true ∧ (chanIs [(aCh 143, 1)] {} {}).eligibleSpare 143 142 = false ∧
    (chanIs [(aCh 143, 1)] {} {}).chEn 143 = true ∧ (pkt svc 0x31 [143, 0xFFFF]).runs 0x31 hdr [143, 0xFFFF] = true ∧
    ((chanIs [(aCh 143, 1)] {} { retired := true }).chan 143).retired = true ∧
    (pkt svc 0x32 [143]).runs 0x32 hdr [143] = true ∧ (svc.chan 143).retired = false ∧
    ((chanIs [] { lock := false } { retired := true }).lane 143).lock = false ∧
    ((chanIs [] { lock := true } { retired := true }).chan 143).scanOk = false ∧
    ((chanIs [] { lock := true, st := .hold } { retired := true, scanOk := true }).chan 143).switching = none ∧
    svc.mayAccess .host true (aCh 143) = true ∧ svc.mayAccess .host true (aCh 143 + 0xC00 + 0x40 * 7) = true ∧
    svc.lq 143 7 = [] ∧ (chanIs [(aCh 143, 1)] {} {}).lqRoom 143 7 9216 = true ∧
    (chanIs [] {} { launch := [(7, [⟨9, [1], false⟩])] }).lq 143 7 = [⟨9, [1], false⟩] ∧
    (svc.advance 0).live = true := by decide

/-- Terrace 127 is configured and started. -/
def terrOn : State := { chanIs [(aCh 143, 1)] {} {} with terraces := [(127, { configured := true, started := true })] }

theorem witness_ChannelControl_launch : (terrOn.advance 0).terrUp 127 = true ∧
    ((terrOn.advance 0).terr 127).started = true ∧ (terrOn.advance 0).chEn 143 = true ∧ 127 / 32 = 143 / 36 ∧
    (terrOn.advance 0).lqRoom 143 7 9216 = true := by decide

/-- Channel 0 is retired to its spare 1, whose lane runs. -/
def switchingTo : State :=
  { regs svc [(aCh 0, 1), (aCh 1, 1)] with
    now := 10 ^ 9, lanes := [(1, { st := .run })], chans := [(0, { switching := some 1 }), (1, {})] }

theorem witness_ChannelControl_switchIn : ((switchingTo.advance 0).chan 0).switching = some 1 ∧
    (switchingTo.advance 0).chRuns 1 = true ∧ (switchingTo.advance 0).txIdle 1 = true ∧
    (switchingTo.advance 0).gapFits 1 ((switchingTo.advance 0).substWords 0) = true := by decide

/-- Channel 143 runs with retry. -/
def runs143 (x : Channel) : State := { chanIs [(aCh 143, 0x801)] { st := .run } x with now := 10 ^ 9 }

/-- A frame of a type with its CRC, its first bit as long ago as its bits take at 8b/10b. -/
def rx (ty : Nat) : RxFrame :=
  { header := mkHeader ty 0 0 0 0, trailer := mkTrailer (mkHeader ty 0 0 0 0) [] 0, age := bitsPs 160 0 }

/-- A DATA frame of eight bytes with its CRC. -/
def rxData (seq : Nat) : RxFrame :=
  { header := mkHeader 0xD1 0 seq 0 8, payload := [5], trailer := mkTrailer (mkHeader 0xD1 0 seq 0 8) [5] 0,
    age := bitsPs 240 0 }

/-- Channel 143 in sync receives the line bits of a frame's words, and reads that whole frame from them. -/
def receives (f : RxFrame) : Bool :=
  let s' := (runs143 { sync := true }).advance 0
  let bits := (LineCode.sendAll 0 0 {} ([f.header] ++ f.payload ++ [f.trailer])).1
  let r := s'.rxRead 143 bits
  decide (s'.rxNext 143 r.1 = some (f, [])) && !f.part &&
    decide ((s'.modChan 143 (fun y => { y with rxLine := r.2 })).rxNext 143 r.1 = some (f, []))

theorem witness_ChannelEvents_lines : receives (rxData 0) = true ∧ receives (rxData 1) = true ∧
    receives { rxData 0 with trailer := 0 } = true ∧ receives (rx 0xA2) = true ∧ receives (rx 0xA3) = true ∧
    receives (rx 0xA5) = true ∧ receives (rx 0xA7) = true ∧ receives (rx 0xB0) = true := by decide +kernel

set_option maxRecDepth 20000 in
theorem witness_ChannelEvents : ((runs143 { sync := true }).advance 0).live = true ∧
    ((runs143 { sync := true }).advance 0).chRuns 143 = true ∧
    ((runs143 { sync := true }).advance 0).chRetry 143 = true ∧
    ((runs143 { sync := true }).advance 0).chCoding 143 ≠ 2 ∧
    (((runs143 { sync := true }).advance 0).rxRead 143 []).1 = [] ∧ ((runs143 {}).chan 143).rx = none ∧
    ((runs143 { sync := true }).advance 0).chEnc 143 = false ∧ hType (rxData 0).header = 0xD1 ∧
    crcFails (rxData 0) = false ∧ crcFails { rxData 0 with trailer := 0 } = true ∧
    hSeq (rxData 0).header = ((runs143 {}).chan 143).rxExpect ∧ crcFails (rxData 1) = false ∧
    hSeq (rxData 1).header ≠ ((runs143 {}).chan 143).rxExpect ∧ ((runs143 {}).chan 143).nakAt = none ∧
    ((runs143 {}).chan 143).control = [] ∧
    hType (rx 0xA2).header = 0xA2 ∧ crcFails (rx 0xA2) = false ∧
    hAck (rx 0xA2).header = (⟨0, 0, [], 0⟩ : TxFrame).seq ∧ crcFails (rx 0xA3) = false ∧
    (⟨7, 0, [], 0⟩ : TxFrame).seq ≠ hAck (rx 0xA3).header ∧ crcFails (rx 0xA5) = false ∧ crcFails (rx 0xA7) = false ∧
    crcFails (rx 0xB0) = false := by decide

theorem witness_ChannelEvents_sending :
    ((runs143 { buffer := [⟨7, 0, [], 0⟩] }).chan 143).advancedAt + (runs143 {}).chTmo 143 ≤ (runs143 {}).now ∧
    ((runs143 {}).chan 143).lastSent + (runs143 {}).chAckInt 143 ≤ (runs143 {}).now ∧
    ((runs143 { control := [0] }).advance 0).txIdle 143 = true ∧
    ((runs143 { round := [⟨7, 0, [], 0⟩] }).advance 0).gapFits 143 [0, 0] = true ∧
    bit ((regs (runs143 {}) [(aCh 143, 0xC01)]).reg (aCh 143)) 10 = true ∧
    max ((runs143 {}).chan 143).lastEnd ((runs143 {}).chan 143).runSince + 100000000 ≤ (runs143 {}).now ∧
    (runs143 {}).chCoding 143 = 0 ∧ (regs (runs143 {}) [(aCh 143, 0x1801)]).chCoding 143 = 1 ∧
    (regs (runs143 {}) [(aCh 143, 0x2801)]).chCoding 143 = 2 ∧ (regs (runs143 {}) [(aCh 143, 0x2801)]).cis 143 = {} ∧
    ((runs143 {}).lane 143).straddle = false ∧
    (regs (runs143 {}) [(aCh 143 + 0xC, 0), (0x30000, 1)]).chGroup 143 ≠ 0xFF ∧
    (regs (runs143 {}) [(aCh 143 + 0xC, 0), (0x30000, 1)]).tbOn = true ∧
    (regs (runs143 {}) [(aCh 143 + 0xC, 0), (0x30000, 1)]).chMarkPh 143 ≤ (runs143 {}).tb.fp % 65536 ∧
    (regs (runs143 {}) [(aCh 143 + 0xC, 0x40000000), (0x30000, 1)]).chRole 143 = 1 ∧ ((runs143 {}).advance 0).txIdle 143 = true ∧
    ((runs143 { txEnd := 10 ^ 10 }).advance 0).txIdle 143 = false := by decide

/-- Channel 143 on scramble-and-stuff, its received stream as given. -/
def stuffed (x : Channel) : State := regs (runs143 x) [(aCh 143, 0x1801)]

theorem witness_ChannelEvents_sync :
    (((stuffed {}).advance 0).rxTake 143 []).chan 143 = ((stuffed {}).advance 0).chan 143 ∧
    ((stuffed { rxLine := { left := some 0 } }).advance 0).chCoding 143 = 1 ∧
    ((((stuffed { rxLine := { left := some 0 } }).advance 0).rxTake 143 []).chan 143).rxLine = { left := some 0 } ∧
    ((((stuffed { sync := true, rxLine := { left := some 0 } }).advance 0).rxTake 143 []).chan 143).rxLine =
      { left := some 0 } ∧
    ((((stuffed { sync := true, rxLine := { left := some 0 } }).advance 0).rxTake 143 []).chan 143).sync = true ∧
    LineCode.syncWord 1 = 0xC3A596E10001FFFE ∧
    (0xC3A596E10001FFFE : Word64).toNat / 2 ^ 32 = 0xC3A596E1 ∧
    (0xC3A596E10001FFFE : Word64).toNat % 65536 = 65535 - (1 : BitVec 16).toNat := by decide

/-- A Cistern as given, over registers. -/
def cisIs (i : Nat) (l : List (Nat × Word)) (x : Cistern) : State := { regs svc l with cisterns := [(i, x)] }

/-- A whole frame of one byte, shown. -/
def oneByte : CisFrame := { bytes := [7], closed := true, shown := true, len := 1 }

/-- A READ of CIS_RD_TAG of Cistern 271 whose hold is over. -/
def tagRead : HeldRead :=
  { pkt := { kind := .read, dst := 0x1F8, src := 0x200, addr := w32 (aCis 271 + 0x40) }, until_ := 0 }

theorem witness_CisternReads : svc.mayAccess .host false (aCis 271 + 0x40) = true ∧
    ((cisIs 271 [] { frames := [oneByte] }).cis 271).frames = [oneByte] ∧
    oneByte.bytes.length ≤ (cisIs 271 [] { frames := [oneByte] }).cisOutB 271 ∧ (svc.cis 271).frames = [] ∧
    (cisIs 143 [(aCis 143, 0x400)] { frames := [oneByte] }).cisSink 143 ≤ 1 ∧
    svc.mayAccess .host true (aCis 271 + 0x10) = true ∧
    ((cisIs 271 [] { frames := [{ bytes := [1] }] }).cis 271).dropping = false ∧
    ((cisIs 271 [] { flushing := true }).cis 271).flushing = true ∧
    ((cisIs 271 [] { frames := [oneByte] }).cis 271).held = [] ∧
    ((cisIs 271 [] { resetting := true }).cis 271).resetting = true ∧
    ((cisIs 271 [] { held := [tagRead] }).cis 271).held = [tagRead] ∧ tagRead.until_ ≤ (svc.advance 0).now ∧
    ((cisIs 271 [] { frames := [oneByte] }).cis 271).abortOwed = false ∧ (cisIs 271 [] {}).feed 271 = none ∧
    (svc.advance 0).askedNow (aCis 271 + 0x10) = 0 ∧
    bit (({ svc with tick := { asked := [(aCis 271 + 0x10, 2)] } } : State).advance 0 |>.askedNow (aCis 271 + 0x10)) 1 = true ∧
    (cisIs 271 [] {}).log.entries.length < 992 := by decide

theorem witness_CisternWrites : svc.mayAccess .host true (aCis 271) = true ∧ bit (svc.reg (aCis 271)) 0 = false ∧
    svc.mayAccess .host true (aCis 271 + 0x20) = true ∧ svc.mayAccess .host true (aCis 271 + 0x24) = true ∧
    svc.firesFirst (aCis 271) = [] ∧ (svc.cisCheck 271 1).1 = 0 ∧ (svc.cisCheck 271 0xFFFFFFFF).1 ≠ 0 ∧
    (regs svc [(aCis 271, 0x21)]).cisByWindow 271 = true ∧ svc.cisByWindow 271 = false ∧
    (cisIs 271 [(aCis 271, 0x21)] { frames := [{ bytes := [1, 2, 3, 4] }] }).cisByWindow 271 = true ∧
    svc.cis 271 = {} ∧ svc.cisCut 271 = 0 ∧ svc.cisEn 271 = false ∧ (cisIs 271 [(aCis 271, 1)] {}).cisEn 271 = true ∧
    (cisIs 144 [(aCis 144, 1)] {}).cisEn 144 = true ∧
    ((cisIs 271 [(aCis 271, 1)] { frames := [{ bytes := [1, 2, 3, 4] }] }).cis 271) = { frames := [{ bytes := [1, 2, 3, 4] }] } := by decide

/-- Queue 16384 of ridge 1: enabled over a profile of two cells, with frames. -/
def queueIs (l : List (Nat × Word)) (x : OQueue) : State :=
  { regs svc ([(aOrc 1, 1), (aQueue 16384, 0x80000000), (aProfile 1 0, 2), (aProfile 1 0 + 0xC, 2)] ++ l) with
    orc := { queues := [(16384, x)] } }

/-- A frame of one byte in a cell of ridge 1. -/
def oneCell : OFrame := { bytes := [7], cells := [1] }

theorem witness_OrchardQueues : queueRidge 16384 = 1 ∧ svc.mayAccess .host true (aQueue 65535) = true ∧
    svc.queueEn 65535 = false ∧ (svc.queueCheck 65535 0x80000000).1 ≠ 0 ∧
    (queueIs [] { frames := [oneCell] }).queueEn 16384 = true ∧
    (queueIs [] { frames := [oneCell] }).orc.windows = [] ∧ svc.mayAccess .host true (aOrc 3) = true ∧
    svc.orcEn 3 = false ∧ (svc.orcCheck 3 3).1 ≠ 0 ∧ (queueIs [] {}).orcEn 1 = true ∧
    ((queueIs [] {}).advance 0).live = true ∧ ((queueIs [] {}).advance 0).qLive 16384 = true ∧
    ((queueIs [] {}).advance 0).admits 16384 2 = true ∧
    ((queueIs [] { node := 1 }).advance 0).admits 16384 2 = false ∧
    ((queueIs [] {}).advance 0).allocCells 1 0 [] = some [] ∧ svc.qLive 16384 = false ∧
    (queueIs [] {}).qHold 16384 = false ∧ (queueIs [(aQueue 16384, 0xC0000000)] {}).qHold 16384 = true ∧
    ((queueIs [] { frames := [oneCell] }).advance 0).dqReady 16384 (.port 127) = true ∧
    (queueIs [] { frames := [oneCell] }).dqReady 16384 (.window 1 15) = true ∧
    (queueIs [] {}).mayAccess .host true (aWin 3 15) = true ∧
    (queueIs [] {}).mayAccess .host true (aWin 3 15 + 4) = true ∧
    (queueIs [] {}).mayAccess .host false (aWin 3 15 + 0x10) = true ∧ ((queueIs [] {}).owin 1 15).opened = false ∧
    (regs (queueIs [] {}) [(aQueue 16384, 0x80020000)]).qSink 16384 = 1 := by decide

theorem witness_OrchardQueues_windows : (queueIs [] {}).qLive (fld (0x40000200 : Word) 31 16) = true ∧
    (queueIs [] {}).admits (fld (0x40000200 : Word) 31 16) 2 = true ∧
    (queueIs [] {}).admits (fld (0x40000201 : Word) 31 16) 3 = false ∧ cdiv (fld (0x40000200 : Word) 15 0) 256 = 2 ∧
    queueRidge (fld (0xC0000001 : Word) 31 16) ≠ 1 ∧
    (({ svc with orc := { windows := [(31, { opened := true, len := 5, bytes := [1, 2, 3, 4], cells := [1] })] } } : State).owin 1 15).opened = true := by decide

/-- One frame of sixteen cells waits to be spilled or fetched. -/
def spilling (cells : List Nat) (pages : List Nat) : State :=
  { queueIs [(aOrc 1, 3), (aOrc 1 + 0x24, 4)] {} with
    orc := { queues := [(16384, { frames := [{ bytes := List.replicate 4096 0, cells := cells }], pages := pages })]
             spillWait := if pages = [] then [16384] else [], fetchWait := if pages = [] then [] else [16384] } }

theorem witness_OrchardPages : ((spilling [] []).advance 0).live = true ∧
    ((spilling [] []).advance 0).orcEn 1 = true ∧ ((spilling [] []).advance 0).rb (aOrc 1) 1 = true ∧
    ((spilling [] []).advance 0).nextFetch 1 = none ∧ ((spilling [] []).advance 0).nextSpill 1 = some 16384 ∧
    (((spilling [] []).advance 0).pickPage 1).isSome = true ∧ ((spilling [] [3]).advance 0).nextFetch 1 = some 16384 ∧
    ((spilling [] [3]).advance 0).spillKey 1 = none ∧ State.nodeOk (.queue 65535) = true ∧
    State.nodeOk (.cls 3 31) = true ∧ State.nodeOk (.ridge 3) = true ∧ State.nodeOk .device = true ∧
    ((queueIs [] { untrust := true }).queue 16384).untrust = true ∧ (queueIs [] {}).orc.audits = [] := by decide

/-- A packet from pavilion 0's port to the gateway of ridge 1 as the first of its series, held at its initiator. -/
def flit (k : RwKind) : RwPkt := { kind := k, dst := 0x100, src := pavilionPort 0, seq := 0, addr := 0x500000, data := 1 }

/-- The initiator holds it, and it is on the network. -/
def holds (k : RwKind) : State :=
  { svc with rw := {
      outstanding := [{ pkt := flit k, use := .other, eng := none, sentAt := 0, firstAt := 0 }], air := [flit k] } }

/-- Its response is on the network. -/
def answers : State := { holds .read with rw := { (holds .read).rw with air := [answerTo (flit .read) .rdata 0 7 []] } }

/-- Router 5 of its ridge is dead and no table has switched. -/
def routerIs5 : State := { holds .read with rw := { (holds .read).rw with routers := [(5, { dead := true, switching := true })] } }

/-- Its target has held it for 10 µs and told its initiator. -/
def held : State := { holds .read with
  now := 10000000, rw := { (holds .read).rw with holding := [⟨flit .read, 0⟩], air := [State.holdingPkt 0x100 (pavilionPort 0) 0 1] } }

theorem witness_RidgewayPackets : portExists (flit .read).src = true ∧ isRequestKind (flit .read).kind = true ∧
    ((holds .read).advance 0).airFirst (flit .read) = true ∧ ((holds .read).advance 0).rwBlocked (flit .read) = 0 ∧
    ((holds .read).advance 0).domainOn (portDomain (flit .read).src) = true ∧
    ((holds .read).advance 0).fence (portDomain (flit .read).src) = .opened ∧
    ((holds .read).advance 0).portTakes (flit .read).src (flit .read).dst = true ∧
    svc.portTakes (terracePort 127) 0x200 = true ∧ portExists 0x100 = true ∧
    ({ svc with rw := { routers := [(5, { switching := true })] } } : State).portTakes (flit .read).src (flit .read).dst = false ∧
    (svc.advance 0).unacked (pavilionPort 0) = 0 ∧ (svc.advance 0).rw.waiting = [] ∧
    ((holds .read).rwAdvance (flit .read)).frameTested (flit .read) = false ∧ State.memChannel (flit .read) = none ∧
    ((holds .read).advance 0).rwHeld 0x100 (pavilionPort 0) 0 = none ∧
    ((holds .read).advance 0).portsHeld ((flit .read).src / 0x80) = false ∧
    ((holds .read).advance 0).portDead (flit .read).src = false ∧ (routerIs5.advance 0).portsHeld ((flit .read).src / 0x80) = true ∧
    ((holds .read).advance 0).pathCut 0x100 (pavilionPort 0) = false ∧
    ((flit .read).seq - ((holds .read).target (flit .read).src (flit .read).dst).expect).toNat = 0 ∧
    (holds .read).rw.outstanding = [{ pkt := flit .read, use := .other, eng := none, sentAt := 0, firstAt := 0 }] ∧
    isRequestKind (.reserved 0) = true ∧ State.inputExists 5 6 = true ∧ ((holds .read).router 5).dead = false ∧
    flit .read ∈ (holds .read).rw.air ∧ (holds .read).onPath (flit .read) 5 6 = true ∧
    svc.mayAccess .host true (aGw 0 + 0x24) = true ∧ portBase (svc.rf (aGw 0 + 0x20) 9 0) = aGw 0 := by decide

/-- A packet from pavilion 0's port to the group range of quad 35. -/
def toQuad (k : RwKind) : RwPkt := { kind := k, dst := quadPort 35, src := pavilionPort 0, addr := w32 (aCh 143) }

/-- A packet from the pager of ridge 0 to the last usable bytes of channel D0, which is enabled and trained. -/
def toMemory (a : Word) : RwPkt := { kind := .read, dst := dramPort 0, src := groupPort 0, addr := a }

theorem witness_RidgewayPackets_served :
    placeOf (toQuad .write).addr.toNat = some (.channel 143, 0) ∧ portExists (toQuad .write).src = true ∧
    portExists (toQuad .write).dst = true ∧ portMay (toQuad .write).src (.channel 143) true = true ∧
    servedAt (toQuad .write).dst (.channel 143) = true ∧ State.memChannel (toQuad .write) = none ∧
    (svc.rwAdvance (toQuad .write)).accessError (toQuad .write).src (.channel 143) 0 = 0 ∧
    (svc.rwAdvance (toQuad .write)).storedBad (.channel 143) 0 = false ∧ svc.dspHolds (toQuad .write).addr.toNat 0 = false ∧
    svc.rwBlocked (toQuad .write) = 0 ∧ svc.rwStalls (.channel 143) 0 = none ∧
    (((svc.rwAdvance (toQuad .posted)).meetCairns (aCh 143)).writeWord (aCh 143) 0).2 = 0 ∧
    (((svc.rwAdvance (toQuad .posted)).meetCairns (aCh 143)).writeWord (aCh 143) 0x801).2 ≠ 0 ∧
    (((svc.rwAdvance (toQuad .posted)).meetCairns (aCh 143)).writeWord (aCh 143) 0x801).2 ≠ 0x03 ∧
    State.memChannel (toMemory 0) = some 0 ∧ portExists (toMemory 0).src = true ∧ portExists (toMemory 0).dst = true ∧
    svc.rb (aOrc 0) 2 = false ∧ svc.stopPend = false ∧ svc.drWorks 0 = false ∧
    (regs { svc with dram := [(0, { trained := true, powered := true, initDone := true })] } [(aDram 0, 1)]).drWorks 0 = true ∧
    (toMemory 0).addr.toNat + 4 ≤ svc.drBytes 0 ∧ svc.drBytes 0 < (toMemory 0xFFFFFFFC).addr.toNat + 4 := by decide

theorem witness_RidgewayPackets_turned :
    (routerIs5.advance 0).airFirst (flit .read) = true ∧ (routerIs5.advance 0).rwBlocked (flit .read) = 0x07 ∧
    (answers.advance 0).airFirst (answerTo (flit .read) .rdata 0 7 []) = true ∧
    (answers.rwAnswered (answerTo (flit .read) .rdata 0 7 [])).isSome = true ∧
    isResponseKind (answerTo (flit .read) .rdata 0 7 []).kind = true ∧
    (held.advance 0).rwHeld 0x100 (pavilionPort 0) 0 = some (1, 0) ∧
    (held.advance 0).airFirst (State.holdingPkt 0x100 (pavilionPort 0) 0 1) = true := by decide

/-- R258: from router 0 to router 10 a packet goes along its row, then down its column; the gateway of router 3 is router
6's. -/
theorem test_routes : routePath 0x000 0x052 = [0, 1, 2, 6, 10] ∧ pathInputs 0x000 0x052 = [(0, 0), (1, 8), (2, 8), (6, 10), (10, 10)] ∧
    gatewayPort 0x019 = 0x35 := by decide

/-- R270: with router 6 dead and the tables switched, the packet goes round; with it dead and not switched, it is cut. -/
theorem test_goesRound :
    (({ svc with rw := { routers := [(6, { dead := true })] } } : State).pathCut 0x000 0x052 = false) ∧
    (({ svc with rw := { routers := [(6, { dead := true, switching := true })] } } : State).pathCut 0x000 0x052 = true) := by
  decide

/-! ### Hypotheses met: Ridgeway and power, fabric, clocks, DRAM, keys -/

/-- DRAIN at level 2. -/
def drain : State := { svc with mode := .drain }

/-- Router 63 as given. -/
def routerIs (x : Router) : State := { svc with now := 10 ^ 9, rw := { routers := [(63, x)] } }

/-- A header for block `b`. -/
def hdrTo (b : Nat) : Hdr := { flags := 0, tag := 1, target := BitVec.ofNat 16 b }

/-- A packet for a block that the Gatehouse has accepted. -/
def pktTo (s : State) (b op : Nat) (ws : List Word) : State :=
  { s with gh := { s.gh with running := some { op := op, hdr := hdrTo b, params := ws, crc := 0 } } }

/-- A domain's fence is asked for by a command that has begun. -/
def fencing (b op : Nat) (gate : Bool) : State :=
  { drain with
    rw := { fences := [(b, .closing)] }, pwr := { op := some b, opGate := gate },
    gh := { drain.gh with running := some { op := op, hdr := hdrTo b, params := [0], crc := 0, begun := true } } }

/-- Every gate but the ridges' is closed. -/
def shut : State :=
  { drain with clk := { shut := (allGates.filter (fun g => decide (g / 0x400 ≠ 1))).map (fun g => (g, true)) } }

set_option maxRecDepth 20000 in
theorem witness_RidgewayAndPower : (svc.advance 0).live = true ∧ svc.domainOn (ridgeId 3) = true ∧
    ((routerIs { missed := 3, missedAt := 10 ^ 9 - 3000000 }).advance 0).now ≤ (10 ^ 9 - 3000000) + 3000000 ∧
    ((routerIs { missed := 3, missedAt := 10 ^ 9 - 3000000 }).router 63).missed = 3 ∧
    ((routerIs { missed := 2 }).router 63).dead = false ∧
    ((routerIs { switching := true }).router 63).switching = true ∧
    (3 : Nat) ∉ svc.rw.cutGateways ∧ (3 : Nat) ∉ svc.rw.cutLinks ∧ (3 : Nat) ∉ svc.rw.cutHub ∧
    (3 : Nat) ∈ ({ svc with rw := { cutGateways := [3] } } : State).rw.cutGateways ∧
    (pkt svc 0x59 [0xFFFF, 2]).runs 0x59 hdr [0xFFFF, 2] = true ∧ isGate 0xFFFF = false ∧
    (pkt svc 0x59 [BitVec.ofNat 32 (terraceId 127), 0]).runs 0x59 hdr [BitVec.ofNat 32 (terraceId 127), 0] = true ∧
    isGate (terraceId 127) = true ∧ svc.gateOpen (terraceId 127) = true ∧ svc.gateCheck (terraceId 127) false = 0 ∧
    (svc.terr 127).window = [] ∧ shut.gateCheck (ridgeId 3) false = 0 ∧ svc.gateCheck (ridgeId 3) false ≠ 0 ∧
    svc.pwr.op = none ∧ (pktTo drain (pavilionId 7) 0x58 [0]).runs 0x58 (hdrTo (pavilionId 7)) [0] = true ∧
    (pktTo drain (terraceId 0) 0x58 [0]).runs 0x58 (hdrTo (terraceId 0)) [0] = true ∧ pavilionId 7 ∈ allDomains ∧
    drain.powerCheck (pavilionId 7) false = 0 ∧ svc.powerCheck (ridgeId 3) false ≠ 0 ∧
    drain.behindDead (pavilionId 7) = false ∧
    ({ drain with pwr := { off := [(pavilionId 7, true)] } } : State).powerCheck (pavilionId 7) true = 0 ∧
    ({ drain with rw := { fences := [(pavilionId 7, .closing)] } } : State).fence (pavilionId 7) = .closing ∧
    ((fencing (pavilionId 7) 0x58 false).advance 0).pwr.op = some (pavilionId 7) ∧
    ((fencing (pavilionId 7) 0x58 false).advance 0).drained (pavilionId 7) = true ∧
    (({ fencing (pavilionId 7) 0x58 false with pwr := { op := some (pavilionId 7), opOn := true } } : State).advance 0).pwr.opOn = true ∧
    ((fencing (ridgeId 3) 0x59 true).advance 0).drained (ridgeId 3) = true ∧
    ((fencing (pavilionId 7) 0x58 false).advance 400000).pwr.opSince + 800000000 ≤ ((fencing (pavilionId 7) 0x58 false).advance 400000).now := by decide

/-- Terrace 127 is up with a request waiting at its window. -/
def windowed (reply : WinReply) : State :=
  { drain with now := 10 ^ 9, terraces := [(127, {
      configured := true, started := true, window := [⟨0, false, false, 0, reply⟩] })] }

/-- A terrace that is up, its four lines on source 0 of its ridge where the image says so, a request at its window. -/
def lineTerr : Terrace :=
  { configured := true, started := true, config := [1], window := [⟨0, false, false, 0, .peek⟩] }

/-- Terrace 127 is such a terrace, and source 0 of ridge 3 runs. -/
def onLines (s : State) : State :=
  { regs s [(aPll 6 + 0x10, 1)] with clk := { plls := [(6, { running := true })] }, terraces := [(127, lineTerr)] }

/-- With an image that puts every line on source 0 and has window logic, all lines run. -/
theorem lines_run (s : State) (ht : s.terr 127 = lineTerr) (hu : s.terrUp 127 = true) (hp : s.pllOut 6 0 = true)
    (hc : Config.terraceInfo [1] 1 = 0) (hf : Config.terraceInfo [1] 0 = 2) :
    (∀ l, l < 4 → s.lineRuns 127 l = true) ∧ (∀ h, s.portClocked 127 h = true) ∧ s.winReady 127 = true := by
  have hl : ∀ l, l < 4 → s.lineRuns 127 l = true := by
    intro l hl
    unfold State.lineRuns State.lineFed State.lineSource State.lineGated
    have hk : lineTerr.lineConfig l = [1] := rfl
    rw [ht, hu]
    simp only [hk, hc, hf]
    obtain rfl | rfl | rfl | rfl : l = 0 ∨ l = 1 ∨ l = 2 ∨ l = 3 := by omega
    all_goals simp [fld, bit, sourcePll, lineTerr]
    all_goals exact hp
  refine ⟨hl, fun h => State.portClocked_of_lines _ _ _ hu (by rw [ht]; rfl) hl, ?_⟩
  unfold State.winReady State.winLogic
  rw [hu, ht]
  simp only [lineTerr, hf]
  decide

/-- Such a terrace's line 3 rises when source 0 of ridge 3 does. -/
theorem line_up (s : State) (ht : s.terr 127 = lineTerr) (hu : s.terrUp 127 = true) (hp : s.pllOut 6 0 = true)
    (hc : Config.terraceInfo [1] 1 = 0) (hf : Config.terraceInfo [1] 0 = 2) : 3 ∈ s.linesUp 127 [24] := by
  have hr := (lines_run s ht hu hp hc hf).1 3 (by decide)
  have hg : s.lineGated 127 3 = false := by
    unfold State.lineGated
    rw [ht, show lineTerr.lineConfig 3 = [1] from rfl, hf]
    decide
  have hs : s.lineSource 127 3 = some 0 := by
    unfold State.lineSource
    simp only [ht, show lineTerr.lineConfig 3 = [1] from rfl, hc]
    decide
  have hd : s.lineFed 127 3 = true := by
    unfold State.lineRuns at hr
    simp_all
  unfold State.linesUp State.lineEdge
  simp [hd, hs, hg]

/-- With an image whose wires of a set carry bit 0 of the stimulus word and the others bit 1, each wire reads as its set says
while that word is 1. -/
theorem wires_read (s : State) (on : FabInput → Bool) (hc : (s.terr 127).comb = [1]) (hr : s.reg 0xE80060 = 1)
    (h0 : Config.stage1 [1] 0 = .stim 0) (h1 : Config.stage1 [1] 1 = .stim 1)
    (h2 : ∀ i, Config.stage2 [1] i = .stage1 (if on i then 0 else 1)) (i : FabInput) : s.inputBit 127 i = on i := by
  cases h : on i
  · rw [State.inputBit_stim s 127 (j := 1) (k := 1) (by rw [hc, h2, h]; rfl) (by rw [hc, h1]), hr]; decide
  · rw [State.inputBit_stim s 127 (j := 0) (k := 0) (by rw [hc, h2, h]; rfl) (by rw [hc, h0]), hr]; decide

/-- The wires of a set ask for everything: a Cistern's word, the Orchard's queue 16384, its pressure, a slip, a write port's valid. -/
def askingWires (i : FabInput) : Bool :=
  match i with
  | .hard (.rdTake _) | .hard .dqTake | .hard (.queueNo 14) | .hard .pressAsk | .hard .wrValid | .hard .winAck | .slip _ | .memEnable _ | .lineEnable _ => true
  | _ => false

/-- A state on such lines with the stimulus word 1. -/
def asking (s : State) : State := regs (onLines s) [(0xE80060, 1)]

theorem witness_wires (h0 : Config.stage1 [1] 0 = .stim 0) (h1 : Config.stage1 [1] 1 = .stim 1)
    (h2 : ∀ i, Config.stage2 [1] i = .stage1 (if askingWires i then 0 else 1)) :
    let r := (asking (cisIs 271 [(aCis 271, 0x400)] { frames := [oneByte] })).advance 0
    let w := (asking (cisIs 271 [(aCis 271, 1)] {})).advance 0
    let o := (asking (queueIs [] { frames := [oneCell] })).advance 0
    let m := (asking drain).advance 0
    (r.inputBit 127 (.hard (.rdTake 271)) = true ∧ r.cisTerr 271 = 127 ∧ r.cisSink 271 = 1 ∧ r.cisClocked 271 = true ∧
      r.pathCut (portOf (.cistern 271)) (terracePort 127) = false) ∧
    (w.cisWrites 271 4 [0, 0, 0, 0] false = true ∧ w.cisWrites 271 4 [1, 0, 0, 0] false = false) ∧
    (o.inputBit 127 (.hard .dqTake) = true ∧ o.inputBit 127 (.hard .pressAsk) = true ∧
      o.hardSpells 127 .queueNo 16 16384 = true ∧ o.hardSpells 127 .queueNo 16 0 = false) ∧
    (m.portAsks 127 { mem := 31, b := true } false 0 [] = true ∧ m.inputBit 127 (.slip 415) = true ∧
      m.inputBit 127 (.lineEnable 3) = true ∧ m.winAnswers 127 true 0 = true ∧ m.winAnswers 127 true 1 = false) := by
  have hr := wires_read ((asking (cisIs 271 [(aCis 271, 0x400)] { frames := [oneByte] })).advance 0) askingWires rfl (by decide) h0 h1 h2
  have hw := wires_read ((asking (cisIs 271 [(aCis 271, 1)] {})).advance 0) askingWires rfl (by decide) h0 h1 h2
  have ho := wires_read ((asking (queueIs [] { frames := [oneCell] })).advance 0) askingWires rfl (by decide) h0 h1 h2
  have hm := wires_read ((asking drain).advance 0) askingWires rfl (by decide) h0 h1 h2
  refine ⟨⟨hr _, by decide, by decide, by decide, by decide⟩, ?_, ⟨ho _, ho _, ?_⟩, ?_, hm _, hm _, ?_⟩
  · simp only [State.cisWrites, State.hardSpells, hw]; decide
  · simp only [State.hardSpells, ho]; decide
  · simp only [State.portAsks, hm]; decide
  · simp only [State.winAnswers, State.hardSpells, hm]; decide

theorem witness_FabricAndPads_clocked (hc : Config.terraceInfo [1] 1 = 0) (hf : Config.terraceInfo [1] 0 = 2) :
    ((onLines drain).advance 0).live = true ∧ (∀ h, ((onLines drain).advance 0).portClocked 127 h = true) ∧
    (∀ p, ((onLines drain).advance 0).portRuns 127 p = true) ∧ ((onLines drain).advance 0).winReady 127 = true ∧
    marchesBram ((onLines drain).advance 0) 127 = false := by
  obtain ⟨hl, hp, hw⟩ := lines_run ((onLines drain).advance 0) rfl (by decide) (by decide) hc hf
  exact ⟨by decide, hp, fun p => hl _ (State.lineOf_lt _ _ _), hw, by decide⟩

theorem witness_ports_clocked (hc : Config.terraceInfo [1] 1 = 0) (hf : Config.terraceInfo [1] 0 = 2) :
    let c := (onLines (chanIs [(aCh 143, 1)] {} {})).advance 0
    let r := (asking (cisIs 271 [(aCis 271, 0x400)] { frames := [oneByte] })).advance 0
    let w := (asking (cisIs 271 [(aCis 271, 1)] {})).advance 0
    let o := (asking (queueIs [] { frames := [oneCell] })).advance 0
    (c.portClocked 127 3 = true ∧ c.chEn 143 = true ∧ c.lqRoom 143 7 9216 = true) ∧
    (r.portClocked (r.cisTerr 271) 1 = true ∧ (r.cis 271).frames = [oneByte]) ∧
    (w.portClocked (271 - 144) 0 = true ∧ w.cisEn 271 = true ∧ w.cisByWindow 271 = false ∧ w.cis 271 = {}) ∧
    (o.portClocked 127 2 = true ∧ o.qLive 16384 = true ∧ o.portHeld 127 = false ∧ o.dqReady 16384 (.port 127) = true ∧
      o.pathCut (terracePort 127) (groupPort (4 * queueRidge 16384)) = false ∧ o.portClocked 127 4 = true) :=
  ⟨⟨(lines_run _ rfl (by decide) (by decide) hc hf).2.1 3, by decide, by decide⟩,
    ⟨(lines_run _ rfl (by decide) (by decide) hc hf).2.1 1, by decide⟩,
    ⟨(lines_run _ rfl (by decide) (by decide) hc hf).2.1 0, by decide, by decide, by decide⟩,
    ⟨(lines_run _ rfl (by decide) (by decide) hc hf).2.1 2, by decide, by decide, by decide, by decide,
      (lines_run _ rfl (by decide) (by decide) hc hf).2.1 4⟩⟩

theorem witness_FabricAndPads : 96 / 32 = 3 ∧ 127 / 32 = 3 ∧ svc.spineBit 96 127 = false ∧
    svc.spineBit 127 127 = false ∧ ((windowed .peek).advance 0).terrUp 127 = true ∧
    ((onLines drain).advance 0).terrLive 127 = true ∧ ((({ drain with fab := [(127, { live := true })] } : State).advance 0).user 127).live = true ∧
    ((windowed (.packet ({ kind := .read, dst := 0x1F8, src := 0x28, seq := 0 }))).advance 0).live = true ∧
    ((windowed .peek).terr 127).window = [⟨0, false, false, 0, .peek⟩] ∧
    (windowed .peek).rf (aTerr 127 + 0x40) 15 0 * 16000 ≤ (windowed .peek).now - ((windowed .peek).terr 127).windowSince ∧
    ({ svc with pins := [(415, { configured := true })] } : State).pin 415 = { configured := true } ∧
    (svc.pin 415).configured = false ∧
    (({ svc with banks := [(12, { decl := 3, ok := true })] } : State).bank 12).decl ≠ 0 ∧ (svc.bank 12).decl = 0 ∧
    svc.rb (aBank 12) 30 = false ∧ (regs svc [(aBank 12, 0x40000000)]).rb (aBank 12) 30 = true ∧
    ((svc.advance 0).spineOn 3 127).length ≠ 1 ∧ (svc.advance 0).terrLive 5 = false ∧ (svc.advance 0).jtagActs = false ∧
    (svc.advance 0).spineAsks 127 127 = false ∧
    (({ svc with now := 10 ^ 10, banks := [(12, { decl := 3, held := true })] } : State).bank 12).outAt + 10 ^ 10 ≤ 10 ^ 10 ∧
    ((({ svc with fab := [(127, { gates := [{}, {}, {}, { due := [(2, true)] }] })] } : State).user 127).gate 3).due = [(2, true)] := by decide

/-- Crystal B is enabled, as given. -/
def xtalIs (x : Crystal) : State := { regs svc [(aX 1, 0x8000C350)] with clk := { xb := x } }

/-- PLL 14 as given. -/
def pllIs (x : Pll) : State := { svc with clk := { plls := [(14, x)], xa := { stable := true } } }

theorem witness_Clocks : svc.mayAccess .host true (aX 1) = true ∧ svc.xEn 1 = false ∧
    (State.xtalCheck 1 (0x0000C350 ||| 0x80000000)).1 = 0 ∧ (State.xtalCheck 1 (0x00000001 ||| 0x80000000)).1 ≠ 0 ∧
    (xtalIs {}).xEn 1 = true ∧ (∀ k, k < 16 → ((xtalIs {}).pll k).running = false) ∧
    ((xtalIs { stable := true, sum8 := 8000 }).ckPpm * 8000 < (8 * 1001 - 8000) * 1000000 ∨ 0 < (xtalIs {}).ckPpm) ∧
    ((xtalIs { stable := true, sum8 := 8000 }).xtal 1).stable = true ∧
    ((xtalIs { counts := [1, 2, 3, 4, 5, 6, 7] }).xtal 1).counts.length = 7 ∧
    (xtalIs {}).windowsAgree 1 ([1, 2, 3, 4, 5, 6, 7] ++ [8]) = false ∧
    ((pllIs { running := true, frozen := true }).pll 14).frozen = true ∧
    (pllIs { frozen := true }).refStable ((pllIs { frozen := true }).pllOn 14) = true ∧
    ({ svc with clk := { xa := { stable := true }, xb := { stable := true } } } : State).xStable 1 = true ∧
    svc.mayAccess .host true (aPll 14) = true ∧ bit (svc.reg (aPll 14)) 0 = false ∧ (svc.pllCheck 14 1).1 ≠ 0 ∧
    bit ((regs svc [(aPll 14, 1)]).reg (aPll 14)) 0 = true ∧ (regs svc [(aPll 8, 1)]).pllUsed 8 = false ∧
    svc.mayAccess .host true (aPll 15 + 0x14) = true ∧ ((pllIs { running := true }).pll 14).running = true ∧
    ((pllIs { lock := true }).pll 14).lock = true ∧
    ({ svc with clk := { startDue := some (1, 500) } } : State).clk.startDue = some (1, 500) := by decide

/-- DRAM channel 15 as given, enabled. -/
def dramIs (x : Dram) : State := { regs drain [(aDram 15, 7), (aDram 15 + 0xC, 1)] with dram := [(15, x)] }

theorem witness_DramChannels : svc.mayAccess .host true (aDram 15) = true ∧ svc.drEn 15 = false ∧
    (svc.drCheck 15).1 ≠ 0 ∧ (dramIs {}).drEn 15 = true ∧ (dramIs {}).drSpill 15 = false ∧
    ((dramIs { powered := true }).dr 15).powered = true ∧ svc.mayAccess .host true (aDram 15 + 0x40) = true ∧
    (dramIs {}).drMode = true ∧ ((dramIs { initDone := true }).dr 15).initDone = true ∧ svc.drMode = false ∧
    ((dramIs { training := true }).dr 15).training = true ∧ svc.mayAccess .host true (aDram 15 + 0x140) = true ∧
    svc.mayAccess .host true (aDram 15 + 0x404) = true ∧ 64 * (dramIs {}).drWinLine 15 < (dramIs {}).drBytes 15 ∧
    (dramIs { initDone := true }).drWorks 15 = true ∧
    ((dramIs { initDone := true, hot := true, coolReads := 1 }).dr 15).coolReads = 1 ∧
    (dramIs {}).rb (aDram 15) 2 = true ∧ (dramIs {}).rb (aDram 15) 1 = true ∧ (dramIs {}).drRetired 15 0 = false ∧
    (dramIs { retired := [⟨0, false⟩] }).drRetired 15 (63 / 64) = true := by decide

/-- A bank of channel 15 owes the refreshes of its interval. -/
theorem witness_DramChannels_refresh (h : Config.refreshInterval 15 = 7800000) :
    ({ dramIs { initDone := true } with now := 7 * 7800000 } : State).refreshOwed 15 3 = 7 ∧
    ({ dramIs { initDone := true, hot := true } with now := 7 * 7800000 } : State).refreshOwed 15 3 = 14 := by
  unfold State.refreshOwed
  rw [h]
  decide

theorem witness_DramChannels_patrol :
    (dramIs { initDone := true, patrolled := [(63, 0)] }).rb (aDram 15) 1 = true ∧
    ((dramIs { initDone := true, patrolled := [(63, 0)] }).dr 15).patrolled = [(63, 0)] ∧
    ((dramIs { initDone := true, trackDue := some 1 }).dr 15).trackDue = some 1 ∧
    ((dramIs { initDone := true, tempDue := some 1 }).dr 15).tempDue = some 1 := by decide

/-- Key slot 63 is in use by channel 143. -/
def keyed : State := { regs svc [(aCh 143, 0x3F8001)] with keys := [(63, { key := [1] })] }

/-- A challenge for level 3 is open. -/
def challenged : State :=
  { svc with gh := { svc.gh with challenge := some ⟨3, [], 10 ^ 13⟩, lockoutEnd := some 5 } }

/-- Twelve zero words. -/
def zeros (n : Nat) : List Word := List.replicate n 0

theorem witness_KeysAndAuth : (pkt svc 0x70 (63 :: zeros 10)).runs 0x70 hdr (63 :: zeros 10) = true ∧
    (pkt svc 0x70 (64 :: zeros 10)).runs 0x70 hdr (64 :: zeros 10) = true ∧ svc.keyInUse 63 = false ∧
    keyed.keyInUse 63 = true ∧ keyed.anyKeyInUse = true ∧ keyed.mode ≠ .stop ∧
    (pkt svc 0x71 [63]).runs 0x71 hdr [63] = true ∧ (pkt svc 0x71 [64]).runs 0x71 hdr [64] = true ∧
    (pkt svc 0x71 [0xFFFFFFFF]).runs 0x71 hdr [0xFFFFFFFF] = true ∧ svc.anyKeyInUse = false ∧
    (pkt svc 0x78 [0, 3]).runs 0x78 hdr [0, 3] = true ∧ svc.gh.auth < 3 ∧ svc.gh.lockoutEnd = none ∧
    (pkt svc 0x78 (1 :: zeros 12)).runs 0x78 hdr (1 :: zeros 12) = true ∧ svc.gh.challenge = none ∧
    challenged.gh.challenge = some ⟨3, [], 10 ^ 13⟩ ∧ challenged.now < 10 ^ 13 ∧
    (pkt svc 0x78 [2, 0]).runs 0x78 hdr [2, 0] = true ∧
    (pkt { svc with gh := { svc.gh with auth := 3 } } 0x78 [2, 3]).runs 0x78 hdr [2, 3] = true ∧
    (keyed.advance 0).live = true ∧ (challenged.advance 0).gh.lockoutEnd = some 5 := by decide

/-! ### Hypotheses met: boot, overlays, resets, log, self-test, debug, monitor -/

/-- The device in BOOT at level 2. -/
def bootDev : State := { dev with gh := { dev.gh with auth := 2 } }

/-- An image with a bare header and a PLANE section of terrace 127. -/
def image : Image :=
  { header := List.replicate 128 0,
    sections := [{ type := 0, target := 0, data := [1, 0, 0, 0, 0x80000000] }, { type := 1, target := 127, data := [] }], bodyLen := 0,
    fromFlash := false, flashAddr := 0 }

/-- A load of 512 bytes is open. -/
def loading (flash reading : Bool) : State :=
  { bootDev with boot := { load := some ⟨0, 0, 512, flash, 0, [], reading⟩ } }

/-- A base image is committed and all its clocks run; terrace 127 is configured. -/
def based : State :=
  { bootDev with
    boot := { base := some image, releasing := true }, clk := { plls := (15 :: List.range 8).map (fun p => (p, { running := true, lock := true })) },
    regs := (List.range 8).map (fun p => (aPll p + 0x10, 0x01010101)), terraces := [(127, { configured := true })] }

theorem witness_BootAndImages : (pkt bootDev 0x20 [0, 0, 512, 1, 0]).runs 0x20 hdr [0, 0, 512, 1, 0] = true ∧
    (pkt svc 0x20 [1, 8, 4194816, 0, 4]).runs 0x20 hdr [1, 8, 4194816, 0, 4] = true ∧
    (pkt bootDev 0x20 [0, 0, 510, 0, 0]).runs 0x20 hdr [0, 0, 510, 0, 0] = true ∧ bootDev.boot.booting = false ∧
    svc.boot.load = none ∧ ({ bootDev with now := 10 ^ 7 } : State).bfRstN = true ∧ bootDev.bfRstN = false ∧
    bootDev.linePllsLocked = true ∧ (svc.advance 0).ownBlocked image = none ∧
    ({ svc with pwr := { off := [(terraceId 127, true)] } } : State).ownBlocked image = some (terraceId 127, 0x07) ∧
    (pkt (loading false false) 0x21 [0, 1]).runs 0x21 hdr [0, 1] = true ∧
    (loading false false).boot.load = some ⟨0, 0, 512, false, 0, [], false⟩ ∧
    (pkt bootDev 0x22 []).runs 0x22 hdr [] = true ∧ bootDev.loadCheck ≠ 0 ∧
    (pkt bootDev 0x26 []).runs 0x26 hdr [] = true ∧ bootDev.boot.base = none ∧ based.boot.base ≠ none ∧
    (based.pll 15).lock = true ∧ (bootDev.pll 15).lock = false ∧ ((based.advance 0).terrUp 127) = true ∧
    ((based.advance 0).terr 127).started = false ∧
    ((loading true true).advance 0).boot.load = some ⟨0, 0, 512, true, 0, [], true⟩ ∧
    ({ bootDev with boot := { booting := true, bootsel := 2 } } : State).boot.booting = true ∧
    partOk (imageHeader []) = false ∧
    ({ bootDev with boot := { autostartDue := some 0 } } : State).boot.autostartDue = some 0 ∧
    ({ bootDev with boot := { rawBusy := true, rawRead := some 256 } } : State).boot.rawRead = some 256 ∧
    (({ svc with terraces := [(127, { restoring := true })] } : State).terr 127).restoring = true ∧
    image.data 1 127 = some [] ∧ bootDev.mayAccess .host true 0x18020 = true ∧
    fld (0x01000000 : Word) 24 16 = 256 := by decide

/-- Four edges of each line have passed since the release. -/
def basedOut : State := { based with fab := [(127, { live := true, edges := [4, 4, 4, 4] })] }

theorem witness_BootAndImages_terrace : ((basedOut.advance 0).terrUp 127 = true ∧ ((basedOut.advance 0).terr 127).started = false ∧
    (basedOut.advance 0).boot.releasing = true ∧ (basedOut.advance 0).live = true) ∧
    ∀ b, ¬ ((basedOut.advance 0).lineSource 127 ((basedOut.advance 0).lineOf 127 (.bay b)) ≠ none ∧
      ((basedOut.advance 0).user 127).edges.getD ((basedOut.advance 0).lineOf 127 (.bay b)) 0 < 4) := by
  refine ⟨by decide, fun b h => ?_⟩
  have hu : ∀ l, l < 4 → ¬ ((basedOut.advance 0).user 127).edges.getD l 0 < 4 := by decide
  exact hu _ (Nat.mod_lt _ (by decide)) h.2

theorem based_outputs : ∀ r, r < 4 → ∀ n, n < 8 → based.outputReady (State.sourcePll r n) = true := by decide

theorem witness_BootAndImages_start :
    based.unstarted = [127] ∧ based.usedOutputs.all based.outputReady = true := by
  refine ⟨by decide, List.all_eq_true.2 fun e he => ?_⟩
  obtain he | he := List.mem_append.1 he
  · obtain ⟨t, ht, he⟩ := List.mem_flatMap.1 he
    obtain ⟨l, -, he⟩ := List.mem_filterMap.1 he
    obtain ⟨n, hn, rfl⟩ := Option.map_eq_some_iff.1 he
    refine based_outputs _ (by have := List.mem_range.1 ht; omega) n ?_
    simp only [State.lineSource] at hn
    split at hn
    · split at hn
      · cases hn; assumption
      · cases hn
    · cases hn
  · have h : (List.range 13).flatMap (fun b => [(based.bank b).src0, (based.bank b).src1].filterMap
        (fun n => if n < 8 then some (State.sourcePll (bankRidge b) n) else none)) = [] := by decide
    rw [h] at he; cases he

/-- Overlay 8 is stored, and staged as given. -/
def ovlIs (x : Overlay) : State :=
  { tbs with boot := { slots := [(8, some image)] }, ovl := x, cairns := [(4095, { sf := 1, act := 0x20000000 })] }

theorem witness_OverlaysAndModes : (pkt (ovlIs {}) 0x23 [9]).runs 0x23 hdr [9] = true ∧
    (pkt (ovlIs {}) 0x23 [8]).runs 0x23 hdr [8] = true ∧ (ovlIs {}).slot 8 = some image ∧
    (ovlIs { id := 7, bound := true }).ovl.bound = true ∧ (ovlIs {}).stageCheck 7 ≠ 0 ∧
    (pkt (ovlIs {}) 0x24 [8, 4095]).runs 0x24 hdr [8, 4095] = true ∧
    ((ovlIs { id := 8, ready := true }).cairn 4095).kind = 2 ∧
    ((ovlIs { id := 8, ready := true }).cairn 4095).bound = false ∧
    ((ovlIs { id := 8, ready := true }).cairn 4095).committed = false ∧
    reached (ovlIs {}).tb.fp ((ovlIs {}).cairn 4095).pos = false ∧
    (pkt (ovlIs {}) 0x25 [3, 4095]).runs 0x25 hdr [3, 4095] = true ∧ Mode.code .maintain ≠ Mode.code .service ∧
    modeAllowed .service .maintain = true ∧ modeAllowed .staging .holdover = false ∧
    ((ovlIs { id := 8, busy := true, image := some image }).advance 0).ovl.image = some image ∧
    ((ovlIs { id := 8, ready := true, bound := true, auto := true, image := some image }).advance 0).ovl.auto = true ∧
    reached ((ovlIs { auto := true }).advance 0).tb.fp 0 = true ∧ image.ownsTerr 127 = true := by decide

theorem witness_Resets : (pkt svc 0x7F [0]).runs 0x7F hdr [0] = true ∧ (pkt svc 0x7F [1]).runs 0x7F hdr [1] = true ∧
    svc.gh.auth ≠ 3 ∧ (svc.advance 0).pwr.held = false ∧
    ({ dev with pwr := { held := true } } : State).pwr.held = true ∧ svc.live = true ∧ terraceId 127 ∈ allDomains ∧
    ({ dev with gh := {} } : State).gh.ready = false ∧ ({ dev with gh := {} } : State).pwr.held = false ∧
    (svc.advance 0).gh.ready = true := by decide

set_option maxRecDepth 20000 in
theorem witness_Resets_filled :
    (∀ d, d ∈ allDomains → Table.get (fun _ => false) (allDomains.map (fun d => (d, true))) d = true) := by decide

/-- Eight zero words. -/
def zeros8 : List Word := List.replicate 8 0

/-- One entry is held. -/
def logged : State := { svc with log := { entries := [⟨1, zeros8⟩], newest := 1 } }

theorem witness_LogAndScrub : (pkt svc 0x60 [0, 64]).runs 0x60 hdr [0, 64] = true ∧
    (pkt svc 0x60 [0, 65]).runs 0x60 hdr [0, 65] = true ∧ (pkt svc 0x61 [0]).runs 0x61 hdr [0] = true ∧
    (pkt logged 0x61 [1]).runs 0x61 hdr [1] = true ∧ logged.log.entries = [⟨1, zeros8⟩] ∧
    (pkt svc 0x62 [16, 0, 0]).runs 0x62 hdr [16, 0, 0] = true ∧
    (pkt svc 0x62 [15, 0, 0]).runs 0x62 hdr [15, 0, 0] = true ∧ 0 < svc.drBytes 15 ∧ (svc.dr 15).trained = false ∧
    svc.domainOn (ridgeId 3) = true ∧
    (({ svc with dram := [(15, { trained := true, retired := [⟨0, false⟩] })] } : State).dr 15).trained = true ∧
    svc.mayAccess .host true 0xD0000C = true ∧ svc.log.entries.length < 992 ∧ (svc.advance 0).live = true ∧
    svc.scrubs 127 = false ∧
    ({ svc with terraces := [(127, { configured := true, started := true })] } : State).switchNear 127 = false ∧
    (({ svc with terraces := [(127, { lost := [⟨511, 0, false⟩] })] } : State).terr 127).lost = [⟨511, 0, false⟩] ∧
    bit (svc.reg (0x101F010 + 0x20000 * 127)) 28 = false ∧ State.patrolOk (.keySlot 63) = true ∧
    bit ((regs svc [(0xD00100, 0)]).reg 0xD00100) (State.patrolBit (.keySlot 63)) = false ∧
    bit ((regs svc [(0xD00100, 0x70000000)]).reg 0xD00100) 28 = true ∧ svc.keyInUse 63 = false ∧
    svc.domainOn (pavilionId (63 / 8)) = true ∧ svc.domainOn (quadId (143 / 4)) = true := by decide

/-- T127's scrubbers read the last frame of the shadow plane and the last word of memory 31. -/
def scrubs127 : State := { svc with
  terraces := [(127, { configured := true, started := true, scrub := { reads := some 9215 } })],
  fab := [(127, { live := true, scrub := List.replicate 32 (0, some 1023) })] }

theorem witness_LogAndScrub_scrubs :
    ({ svc with terraces := [(127, { configured := true, started := true })], regs := [(0x101F000 + 0x20000 * 127, 1)] } : State).scrubs 127 = true ∧
    svc.terrUp 127 = false ∧ 0 < fld (scrubs127.reg (0x101F010 + 0x20000 * 127)) 23 16 ∧
    ({ scrubs127 with terraces := [(127, { configured := true, scrub := { next := 9215 } })] } : State).scrubs 127 = true ∧
    (scrubs127.advance 0).scrubs 127 = true ∧ ((scrubs127.advance 0).terr 127).scrub.reads = some 9215 ∧
    (scrubs127.advance 0).terrUp 127 = true ∧ ((scrubs127.advance 0).user 127).scrubPort 31 = (0, some 1023) ∧
    (scrubs127.advance 0).switchNear 127 = false ∧ ((scrubs127.advance 0).terr 127).anyHeld (scrubs127.advance 0).now = false ∧
    ((scrubs127.advance 0).terr 127).holdStarts = [] ∧
    (({ scrubs127 with terraces := [(127, { heldBay := some 511, heldUntil := 1 })] } : State).terr 127).anyHeld 0 = true := by decide

/-- SERVICE with an error in a stored word. -/
def weakDev (p : PatrolPlace) : State := { tbs with weak := [(p, .uncorrectable)] }

/-- SERVICE with the memories of domains filled. -/
def filled (ds : List Nat) : State := { svc with pwr := { filled := ds.map (fun d => (d, true)) } }

theorem witness_weak : (weakDev (.overlayStore 8)).weakAt (.overlayStore 8) = .uncorrectable ∧
    (pkt (weakDev (.overlayStore 8)) 0x23 [8]).runs 0x23 hdr [8] = true ∧
    (weakDev (.cairnEntry 4095 3)).cairnBad 4095 = true ∧
    (pkt (weakDev (.cairnEntry 4095 3)) 0x24 [8, 4095]).runs 0x24 hdr [8, 4095] = true ∧
    (pkt (weakDev (.cairnEntry 4095 3)) 0x52 [1, 4095]).runs 0x52 hdr [1, 4095] = true ∧
    (svc.advance 0).patrolMay (.cairnEntry 4095 3) = true ∧ (svc.advance 0).heldUpset (.cairnEntry 4095 3) = .clean ∧
    (svc.advance 0).patrolMay (.keySlot 63) = true ∧ ((filled [quadId 35]).advance 0).patrolMay (.retryBuffer 143) = true ∧
    ((filled [pavilionId 7]).advance 0).patrolMay (.scratchpad 63 0x3FFF8) = true ∧ State.nodeOk (.queue 65535) = true ∧
    svc.weak = [] ∧ (svc.advance 0).tick.ended = [] := by decide

/-- Cairn 4095 is a capture at superframe 1, with a capture record. -/
def cap8 (x : Capture) : State := { tbs with cap := x, cairns := [(4095, { sf := 1, act := 0x80000000 })] }

theorem witness_SelfTestAndCapture : (pkt bootDev 0x50 [63]).runs 0x50 hdr [63] = true ∧
    (pkt bootDev 0x50 [64]).runs 0x50 hdr [64] = true ∧ bootDev.selfTest = false ∧ bootDev.setMode 1 = true ∧
    bootDev.setQuiet 1 = true ∧ (∀ d, d ∈ State.setDomains 1 → bootDev.domainOn d = true) ∧
    (pkt bootDev 0x51 [0x0100007F, 0]).runs 0x51 hdr [0x0100007F, 0] = true ∧ fld (0x0100007F : Word) 15 0 = 127 ∧
    bootDev.domainOn (State.marchDomain 1 127) = true ∧ bootDev.fenced (State.marchDomain 1 127) = false ∧
    bootDev.marchQuiet 1 127 = true ∧ (pkt svc 0x53 [5]).runs 0x53 hdr [5] = true ∧ (5 : Nat) ∉ svc.bist.setsLeft ∧
    (5 : Nat) ∈ ({ svc with bist := { setsRun := [5] } } : State).bist.setsRun ∧
    (pkt svc 0x53 [0x01000000]).runs 0x53 hdr [0x01000000] = true ∧
    ({ svc with bist := { marchRun := true } } : State).bist.march = none ∧
    (pkt svc 0x52 [0, 0]).runs 0x52 hdr [0, 0] = true ∧
    (pkt (cap8 {}) 0x52 [1, 4095]).runs 0x52 hdr [1, 4095] = true ∧ ((cap8 {}).cairn 4095).kind = 8 ∧
    reached (cap8 {}).tb.fp ((cap8 {}).cairn 4095).pos = false ∧
    ({ bootDev with bist := { setsLeft := [0, 5] } } : State).bist.setsLeft = [0, 5] ∧
    ({ bootDev with bist := { march := some (0x0100007F, 1) } } : State).bist.march = some (0x0100007F, 1) ∧
    ((cap8 { taking := true }).advance 0).cap.taking = true ∧
    reached ((cap8 { taking := true }).advance 0).tb.fp 0 = true := by decide

/-- A capture of terrace 127 whose position has come. -/
def capLines (f : List (Nat × Nat)) : State :=
  (onLines { drain with cap := { taking := true, targets := [127], begun := true, fixed := f } }).advance 0

theorem witness_SelfTestAndCapture_lines (hc : Config.terraceInfo [1] 1 = 0) (hf : Config.terraceInfo [1] 0 = 2) :
    let s := capLines []
    let d := capLines [(127, 0), (127, 1), (127, 2), (127, 3)]
    s.live = true ∧ s.cap.taking = true ∧ reached s.tb.fp s.cap.position = true ∧ 127 ∈ s.cap.targets ∧
      s.lineRuns 127 3 = true ∧ (127, 3) ∉ s.cap.fixed ∧ 3 ∈ s.linesUp 127 [24] ∧ s.cap.begun = true ∧
      d.live = true ∧ d.cap.taking = true ∧ reached d.tb.fp d.cap.position = true ∧
      (∀ t l, t ∈ d.cap.targets → l < 4 → d.lineRuns t l = true → (t, l) ∈ d.cap.fixed) := by
  refine ⟨by decide, by decide, by decide, by decide, (lines_run _ rfl (by decide) (by decide) hc hf).1 3 (by decide),
    by decide, line_up _ rfl (by decide) (by decide) hc hf, by decide, by decide, by decide, by decide, ?_⟩
  intro t l ht hl _
  obtain rfl : t = 127 := List.mem_singleton.mp ht
  obtain rfl | rfl | rfl | rfl : l = 0 ∨ l = 1 ∨ l = 2 ∨ l = 3 := by omega
  all_goals decide

theorem witness_EngineCommands : (pkt svc 0x48 [63, 0x3FFFC, 1]).runs 0x48 hdr [63, 0x3FFFC, 1] = true ∧
    (pkt svc 0x48 [63, 0x3FFFC, 1, 2]).runs 0x48 hdr [63, 0x3FFFC, 1, 2] = true ∧
    (pkt svc 0x48 [64, 0, 1]).runs 0x48 hdr [64, 0, 1] = true ∧ (svc.eng 63).st = .stopped ∧
    ({ svc with clk := { shut := [(pavilionId 7, true)] } } : State).gateOpen (pavilionId 7) = false ∧
    (pkt svc 0x48 [63, 0x3FFF8, 1, 2]).runs 0x48 hdr [63, 0x3FFF8, 1, 2] = true ∧
    ({ svc with spadBad := [(2097151, true)] } : State).spadBadAt 63 0x3FFF8 = true ∧
    bit (svc.reg 0xE80000) 0 = false ∧ ({ svc with spadBad := [(32767, true)] } : State).spadBadAt 0 0x3FFF8 = true ∧
    (pkt svc 0x49 [63, 0x3FFFC]).runs 0x49 hdr [63, 0x3FFFC] = true ∧
    (pkt svc 0x49 [63, 0x40000]).runs 0x49 hdr [63, 0x40000] = true ∧ svc.gateOpen (pavilionId 7) = true ∧
    (svc.pll 14).lock = false ∧
    (({ svc with clk := { plls := [(14, { lock := true })] } } : State).pll 14).lock = true ∧
    (pkt svc 0x4A [63]).runs 0x4A hdr [63] = true ∧ (pkt svc 0x4A [64]).runs 0x4A hdr [64] = true ∧
    ((run0 {}).eng 0).wait = none ∧ ((run0 { wait := some .fence }).eng 0).wait ≠ none := by decide

/-- Engine 63 is in the monitor with a DONE-free first word, attached. -/
def monitored (t : Bool) : State :=
  { regs svc [(0xE80104, 0x80000000)] with
    gh := { svc.gh with auth := 3 }, engines := [(63, { st := .monitor, tvalid := t })] }

theorem witness_DebugSessions : (monitored true).mayAccess .host true 0xE8010C = true ∧
    bit ((monitored true).reg 0xE80080) 0 = false ∧ bit (0x80000000 : Word) 31 = true ∧
    (monitored true).attached 63 = true ∧ ((monitored true).eng 63).st = .monitor ∧
    (monitored true).mayAccess .host true 0xE8011C = true ∧ (monitored false).mayAccess .host true 0xE80114 = true ∧
    ((monitored true).eng 63).ctx.pc < 0x40000 ∧ (monitored true).spadBadAt 63 0 = false ∧
    (monitored true).mayAccess .host true 0xE80104 = true ∧ (monitored true).mayAccess .host true 0xE80060 = true ∧
    (monitored true).mayAccess .host true 0xE80044 = true ∧ bit ((monitored true).reg 0xE80044) 0 = false ∧
    placeOf 0x0F000000 = none ∧ bit ((monitored true).reg 0xE80044) 1 = false ∧ (monitored true).pllOut 14 0 = false ∧
    (clocked.advance 0).pllOut 14 0 = true ∧
    (((monitored true).setReg 0xE80044 3).setReg 0xE80048 0 |>.hubSent 0x205 (portOf .device)).storedBad .device 0x14 = false ∧ ((monitored true).setReg 0xE80048 0).accessError 0x205 .device 0x14 = 0 ∧
    (monitored true).storedBad .device 0x14 = false ∧ (monitored true).mayAccess .host true 0xE80000 = true ∧
    (svc.eng 0).st = .stopped ∧ fld (0x3FFFFC00 : Word) 31 16 ≤ 16383 ∧ State.traceSource 0 0 = true ∧
    ({ svc with trace := { run := true } } : State).trace.next ≤ 16383 := by decide

/-- The trace has the posts, and the packet of one is on its way. -/
def tracing (run : Bool) (n : Nat) : State :=
  { regs svc [(0xE8000C, 4), (0xE80018, 1)] with trace := {
      run := run, next := n, made := [⟨2, 0, 0x11, 5, 8191, 7⟩], queued := [(2, 8), (5, 8)] } }

theorem witness_DebugSessions_trace : ((tracing true 16383).advance 0).live = true ∧
    (((tracing false 0).advance 0).trace.made.find? (fun p => decide (p.cls = 2 ∧ p.src = 0 ∧ p.kind = 0x11 ∧ p.d0 = 8191 ∧ p.d1 = 7))).isSome = true ∧
    ((tracing true 0).advance 0).traceTakes 5 0 = true ∧ ((tracing true 0).advance 0).traceTakes 5 127 = false ∧
    ((tracing true 16383).advance 0).trace.next = 16383 ∧ (tracing true 0).trace.clock = (tracing true 0).now ∧
    (tracing true 0).weak = [] ∧ bit ((tracing true 0).reg 0xE8000C) 2 = true ∧
    ((tracing true 0).decidePost 8191 7).2.trace.made.length = 2 := by decide

/-- The monitor runs with input 0 as given. -/
def monIs (x : MonInput) : State := { regs svc [(0xF00000, 1)] with mon := { adcOn := true, inputs := [(0, x)] } }

theorem witness_MonitorAndBoundaryScan : svc.mayAccess .host true 0xF00000 = true ∧ svc.firesFirst 0xF00000 = [] ∧ bit (svc.reg 0xF00000) 0 = false ∧
    monValid 0 = true ∧ ((monIs {}).advance 0).mon.adcOn = true ∧ ((monIs {}).advance 0).live = true ∧
    ((monIs { busy := true }).monIn 0).busy = true ∧
    ((monIs { samples := [0] }).monIn 0).samples = [0] ∧ ((monIs {}).monIn 0).nextDue ≤ (monIs {}).now ∧
    0 + 500000 ≤ ((monIs {}).advance 250).now ∧ ((monIs {}).advance 250).refDue 1 ≤ ((monIs {}).advance 250).now ∧
    [0x123].length = 2 ^ (monIs {}).monAvg 0 ∧ svc.mon.adcOn = false ∧ dev.mode = .boot ∧ dev.boot.base = none ∧
    (0xFF : Byte) ∉ ([0x00, 0x01, 0x02, 0x06, 0x07, 0x08, 0x09] : List Byte) := by decide

/-- The state that an integrity stop leaves, with a command waiting. -/
def stoppedDev : State := { (svc.integrityStop 3 0xFF 6 0).advance 1 with pending := [.ping hdr []] }

theorem witness_IntegrityStopHolds : svc.pwr.held = false ∧ svc.stopPend = false ∧ svc.mode ≠ .stop ∧
    (svc.integrityStop 3 0xFF 6 0).stopPend = true ∧ (svc.integrityStop 3 0xFF 6 0).gh.running = none ∧
    stoppedDev.mode = .stop ∧ stoppedDev.stopPend = false ∧ stoppedDev.pwr.held = false ∧ stoppedDev.keys = [] ∧ stoppedDev.gh.running = none ∧
    stoppedDev.boot.load = none ∧ stoppedDev.pending = [.ping hdr []] := by decide

/-! ### Hypotheses met: the rest of the engine -/

theorem witness_AccumulatorInstructions : (run0 {}).quiet 0 = true ∧
    ({ run0 {} with engines := [(63, { st := .run })] } : State).quiet 63 = true := by decide

theorem witness_AmovExtraction :
    ({ run0 {} with engines := [(63, { st := .run })] } : State).quiet 63 = true := by decide

theorem witness_ControlRegisters :
    ({ run0 {} with engines := [(63, { st := .run })] } : State).quiet 63 = true := by decide

theorem witness_WellFormedCommandsNeverStop : (Instr.mac 63 1 31 31 3).wf = true ∧
    (Instr.mac 64 1 31 31 3).wf = false ∧ (Instr.paramWrite hdr 0 0).wf = true := by decide

theorem witness_StepRunsTheFrontCommand :
    ({ dev with pending := [.ping hdr []] } : State).pending = Instr.ping hdr [] :: [] ∧
    State.reset.pending = [] := by decide

/-! ### Single steps with values from the manual -/

/-- A check of the state a step answers. -/
def after (o : Host.Outcome State Fault Refusal) (p : State → Bool) : Bool :=
  match o with
  | .next t => p t
  | _ => false

/-- Units and addresses by the examples of the scope, Orchard and Ridgeway chapters. -/
theorem test_numbering : cisRidge 214 = 2 ∧ aQueue 0x2A17 = 0x4250B8 ∧ aWin 1 3 + 0x10 = 0x440170 ∧ pavilionPort 0 = 0x02E ∧
    queueRidge 0x6A10 = 1 ∧ aThread 1792 = 0xC1E000 ∧ terraceId 40 = 0x0828 := by decide

set_option maxRecDepth 20000 in
/-- The packets and the replies of the protocol chapter's two examples. -/
theorem test_packet_crc : crc32cWords [0x10000101, 0x00010000, 0x10] = 0x757C2B04 ∧
    crc32cWords [0x00000101, 0x00010000, 2] = 0x9D30448F ∧
    crc32cWords [0x11000102, 0x00020001, 0x00010010, 0x3E8] = 0xF6E7C04B ∧
    crc32cWords [0x01000102, 1] = 0xA86DF8EF ∧ crc32cWords [0x00000102, 1] = 0xE15185C8 := by decide

/-- The header of the watchdog example. -/
def wdogHdr : Hdr := { flags := 0, tag := 0x0102, target := 1 }

/-- The watchdog example: PENDING while the packet runs. -/
theorem test_read_reply_pending :
    after (exec (.readReply true 3) { svc with gh := { svc.gh with
      before := { held := { status := 1, tag := 0x0102, target := 1 } } } })
      (fun t => t.gh.portOut.take 2 == [0x01000102, 0x00000001]) = true := by decide

/-- The watchdog example: DONE and the period written. -/
theorem test_param_write_watchdog :
    after (exec (.paramWrite wdogHdr 0x00010010 0x3E8) { svc with gh := { svc.gh with
      running := some { op := 0x11, hdr := wdogHdr, params := [0x00010010, 0x3E8], crc := 0 } } })
      (fun t => t.gh.held == { opcode := 0x11, status := 0, reason := 0, tag := 0x0102, target := 1 } &&
        t.reg 0x00010010 == 0x3E8 && t.gh.wdog == 1000000000000) = true := by decide

/-- The addend of the 120 ppb example. -/
theorem test_time_addend :
    after (exec (.timeAddend hdr 0x000001FF 0xFFFBF935) (pkt tbs 0x42 [0x000001FF, 0xFFFBF935]))
      (fun t => t.tb.addend == 0x020000000000 - 0x406CB && t.gh.held.status == 0) = true := by decide

/-- The position 1042:07999:65535 and the phase step after it. -/
theorem test_position_form : fpForm ((1042 * 16000 + 7999) * 65536 + 65535) = 0x000004121F3FFFFF ∧
    fpForm ((1042 * 16000 + 7999) * 65536 + 65535 + 1) = 0x000004121F400000 ∧
    fpForm ((1042 * 16000 + 15998 + 3) * 65536 + 32768) = BitVec.ofNat 64 (1043 * 2 ^ 32 + 1 * 65536 + 32768) := by decide

/-- The scrubber's repair in T40 and its log entry. -/
theorem test_scrub_repair_log_entry :
    after (exec (.configScrubRead 40 false 137 4 17 22 .corrected 0)
      { regs tbs [(0x101F010 + 0x20000 * 40, 0x800A0000)] with
        tb := { fp := (1042 * 16000 + 6000) * 65536 + 12000, devTime := 2084375000000 * 2 ^ 40 },
        log := { newest := 0x1C3 }, 
        terraces := [(40, { configured := true, started := true, scrub := { reads := some (9 * 137 + 4) } })] })
      (fun t => t.log.entries.map (fun e => e.words) == [[0x90030828, 0x1C4, 0x412, 0x17702EE0, 0x824, 0x165A0BC0,
        0x00894456, 0]] && (t.terr 40).heldBay == some 137 &&
        t.reg (0x101F010 + 0x20000 * 40) == 0x800A0001) = true := by decide

/-- The preserving march of bank group OB5 ends without a failure. -/
theorem test_march_end :
    after (exec (.marchEnd [] 0) { svc with mode := .maintain, bist := { march := some (0x02000005, 1) } })
      (fun t => [0xE00204, 0xE00208, 0xE0020C, 0xE00210].map t.reg == [0, 0xFFFFFFFF, 0xFFFFFFFF, 0x02010005]) = true := by
  decide

/-- Slot 7's alarm: the third result below 3,160 sets bit 7 and logs event 0x70 with the code. -/
theorem test_monitor_alarm :
    after (exec (.conversionResult 7 false [3072, 3072, 3072, 3072] 1000)
      { regs svc [(0xF00000, 1), (0xF01000 + 0x20 * 7, 0xA300000A), (0xF01004 + 0x20 * 7, 0x0F160C58)] with
        mon := { adcOn := true, inputs := [(7, { outRun := 2, busy := true })] } })
      (fun t => bit (t.reg 0xF0000C) 7 && (t.log.entries.map (fun e => fld (e.words.getD 0 0) 27 16)) == [0x70]) = true := by
  decide

/-- The device identification of the boundary-scan port. -/
theorem test_idcode : after (exec .idcode svc) (fun t => t.jtag.ir == 0x01 && t.jtag.driving == false) = true := by decide

/-! ### Single engine steps by hand from the instruction table -/

/-- Engine 0 runs with g1 and g2. -/
def two (a b : Word) : State := run0 { ctx := { g := [(1, a), (2, b)] } }

theorem test_add_wraps : after (exec (.add 0 1 1 2) (two 0x7FFFFFFF 1)) (fun t => (t.eng 0).g 1 == 0x80000000) = true := by
  decide

theorem test_adds_saturates : after (exec (.adds 0 3 1 2) (two 0x7FFFFFFF 1)) (fun t => (t.eng 0).g 3 == 0x7FFFFFFF) = true := by
  decide

theorem test_sra_keeps_sign : after (exec (.sra 0 3 1 2) (two 0x80000000 0x21)) (fun t => (t.eng 0).g 3 == 0xC0000000) = true := by
  decide

theorem test_slt_signed : after (exec (.slt 0 3 1 2) (two 0x80000000 1)) (fun t => (t.eng 0).g 3 == 1) = true := by decide

theorem test_sltu_unsigned : after (exec (.sltu 0 3 1 2) (two 0x80000000 1)) (fun t => (t.eng 0).g 3 == 0) = true := by
  decide

theorem test_g0_stays_zero : after (exec (.addi 0 0 0 5) (two 0 0)) (fun t => (t.eng 0).g 0 == 0 && (t.eng 0).ctx.pc == 4) = true := by
  decide

/-- The product of two halfwords 0x8000 with FRAC is 0x7FFFFFFF (R358). -/
theorem test_mpy_frac_corner :
    after (exec (.mpy 0 0 1 1 0) (run0 { ctx := { status := 2, g := [(1, 0x8000)] } }))
      (fun t => (t.eng 0).acc 0 == 0x007FFFFFFF) = true := by decide

theorem test_branch_taken : after (exec (.bltu 0 1 2 0xFFFE)
    (run0 { ctx := { pc := 8, g := [(1, 1), (2, 2)] } })) (fun t => (t.eng 0).ctx.pc == 4) = true := by decide

theorem test_jal_links : after (exec (.jal 0 1) (two 0 0)) (fun t => (t.eng 0).g 31 == 4) = true := by decide

theorem test_stw_then_byte : after (exec (.stw 0 1 0 0x10) (two 0x11223344 0))
    (fun t => t.spadByte 0 0x10 == 0x11 && t.spadByte 0 0x13 == 0x44) = true := by decide

/-- The no-operation's word, and words written out from the formats. -/
theorem test_engine_words : decodeEngine 0 0x04000000 = some (.addi 0 0 0 0) ∧
    decodeEngine 3 0x00221800 = some (.add 3 1 2 3) ∧ decodeEngine 3 0x6022FFFE = some (.beq 3 1 2 0xFFFE) ∧
    decodeEngine 3 0x00221FFF = none := by decide

/-! ### The queue -/

theorem test_step_takes_the_front :
    after (step { dev with pending := [.highz, .idcode] }) (fun t => t.jtag.ir == 0x06 && t.pending == [.idcode]) = true := by
  decide

/-! ### Scramble-and-stuff -/

/-- The sync word of block 5, and the stuff bit after 31 equal bits (R169, R171). -/
theorem test_scramble_and_stuff : LineCode.syncWord 5 = 0xC3A596E10005FFFA ∧
    LineCode.stuff 0 false (List.replicate 32 true) = List.replicate 31 true ++ [false, true] ∧
    (LineCode.unstuff 32 { bits := List.replicate 33 true }).map (fun r => (r.1.length, r.2.1, r.2.2.bits)) = some (32, 1, []) := by decide

/-- The scrambler starts at BC above fifteen ones, so bit 15 of BC alone gives key bits 1, 0, 0
(R170). -/
theorem test_scrambler_first_bits : LineCode.seed 0 = 0x7FFF ∧
    (LineCode.scramble (LineCode.seed 0x8000) [false, false, true]) = [true, false, true] := by decide


/-! ### Fabric parts -/

/-- Clocks c1 and c3 of the example on Spine 5, and a Spine nobody drives (R286, R288, R289). -/
theorem test_spine_example : FabricCell.spineClock [⟨true, false, true⟩, ⟨true, false, true⟩] = (false, [true, true]) ∧
    FabricCell.spineClock [⟨true, true, false⟩, ⟨true, false, true⟩] = (true, [true, false]) ∧
    FabricCell.spineClock [⟨false, false, true⟩] = (false, [false]) := by decide

/-- The paths of the timing example: T40 to T42, the two halves after a flip-flop is placed, the 64-bit adder in one bay, and
a Spine path of one level (R293). -/
theorem test_timing_example : FabricCell.spurDistance 40 42 = some 2 ∧
    FabricCell.pathPs ⟨3, 2, false, false, none, false⟩ = 1200 ∧ FabricCell.pathPs ⟨2, 0, false, true, none, false⟩ = 630 ∧
    FabricCell.pathPs ⟨1, 2, false, false, none, false⟩ = 680 ∧
    FabricCell.pathPs ⟨1, 0, false, true, some (64, 1), false⟩ = 944 ∧
    FabricCell.pathPs ⟨1, 0, true, false, none, false⟩ = 920 := by decide

/-- A result past the range clamps or wraps, and OVF is set either way (R297). -/
theorem test_slice_saturates : FabricCell.settle true (2 ^ 63) = (0x7FFFFFFFFFFFFFFF, true) ∧
    FabricCell.settle false (2 ^ 63) = (0x8000000000000000, true) ∧
    FabricCell.product (-2) 3 = 0xFFFFFFFFFFFFFFFA ∧ FabricCell.preAdd 2 0 1 = 0x7FFFFFF := by decide

/-! ### Ridgeway headers and paths, DRAM places -/

/-- The request and the response of the example of a response lost (R259). -/
theorem test_header_words :
    (headerWords { kind := .read, dst := 0xAA, src := 0x2E, seq := 0x1F4, addr := 0x440170 }).take 3 =
      [0x40AA0B80, 0x01F40000, 0x00440170] ∧
    (headerWords { kind := .rdata, dst := 0x2E, src := 0xAA, seq := 0x1F4, data := 0xE0000004 }).take 2 =
      [0x602E2A80, 0x01F40000] := by decide

/-- From router 0 of ridge 0 to router 15 of ridge 1: out by router 5, in by router 10 (R258). -/
theorem test_route : routePath 0x001 0x0F8 = [0, 1, 5, 26, 27, 31] ∧ gatewayPort 0x001 = 0x2D ∧
    routePath 0x001 0x07A = [0, 1, 2, 3, 7, 11, 15] := by decide

/-- The faulty line of the example: bank group 1, bank 0, rank 1, device row 1,331, check bytes at 1,896 (R399, R400). -/
theorem test_line_place : linePlace true 1193065 = (1, 0, 1, 1331) ∧ lineCheckAt 1193065 = 1896 := by decide
end Sys2Proof.Tests
end

section
/-!
SUPPORT. The command packet as bytes (R47, R49): words sent as bytes read back as the same words, and the two header words
give back the opcode, flags, tag, length and target they were made of.
-/
namespace Sys2Proof

/-! ### Words as bytes -/

@[simp] theorem length_wordBytes (w : Word) : (wordBytes w).length = 4 := rfl

theorem length_flatMap_wordBytes (ws : List Word) : (ws.flatMap wordBytes).length = 4 * ws.length := by
  induction ws with
  | nil => rfl
  | cons w ws ih => rw [List.flatMap_cons, List.length_append, ih, length_wordBytes, List.length_cons]; omega

theorem beWord_wordBytes (w : Word) : beWord (wordBytes w) = w := by
  apply BitVec.eq_of_toNat_eq
  have hw := w.isLt
  simp only [beWord, beNat, wordBytes, w32, List.cons_append, List.nil_append, List.take_succ_cons, List.take_zero,
    List.foldl_cons, List.foldl_nil, BitVec.toNat_ofNat]
  omega

theorem chunksAux_flatMap_wordBytes (ws : List Word) :
    ∀ fuel, ws.length ≤ fuel → chunksAux 4 fuel (ws.flatMap wordBytes) = ws.map wordBytes := by
  induction ws with
  | nil => rintro (_ | fuel) - <;> rfl
  | cons w ws ih =>
    rintro (_ | fuel) hfuel
    · exact absurd hfuel (Nat.not_succ_le_zero _)
    · have htail := ih fuel (Nat.le_of_succ_le_succ hfuel)
      exact congrArg (wordBytes w :: ·) htail

/-- The receiver reads the words that were sent (R47). -/
theorem toWords_flatMap_wordBytes (ws : List Word) : toWords (ws.flatMap wordBytes) = ws := by
  have hfuel : ws.length ≤ (ws.flatMap wordBytes).length := by rw [length_flatMap_wordBytes]; omega
  rw [toWords, chunks, chunksAux_flatMap_wordBytes ws _ hfuel, List.map_map,
    show beWord ∘ wordBytes = id from funext beWord_wordBytes, List.map_id]

/-! ### The header words -/

/-- Fields that do not overlap add up. -/
theorem toNat_at_or_w32 {a b : Nat} (ha : a < 2 ^ 16) (hb : b < 2 ^ 16) : (at_ 16 a ||| w32 b).toNat = 2 ^ 16 * a + b := by
  have hor := Nat.two_pow_add_eq_or_of_lt hb a
  simp only [at_, w32, BitVec.toNat_or, BitVec.toNat_ofNat]
  rw [Nat.mod_eq_of_lt (by omega), Nat.mod_eq_of_lt (by omega), Nat.mul_comm a, hor]

theorem toNat_at_or_at_or_w32 {a b c : Nat} (ha : a < 2 ^ 8) (hb : b < 2 ^ 8) (hc : c < 2 ^ 16) :
    (at_ 24 a ||| at_ 16 b ||| w32 c).toNat = 2 ^ 24 * a + (2 ^ 16 * b + c) := by
  have hlow := toNat_at_or_w32 (a := b) (by omega) hc
  have hor := Nat.two_pow_add_eq_or_of_lt (i := 24) (b := 2 ^ 16 * b + c) (by omega) a
  rw [BitVec.or_assoc, BitVec.toNat_or, hlow, hor]
  simp only [at_, BitVec.toNat_ofNat]
  rw [Nat.mod_eq_of_lt (by omega), Nat.mul_comm a]

end Sys2Proof

namespace Sys2Proof.Machine

open Sys2Proof

/-- The first header word: opcode, flags, tag. -/
def headWord0 (op : Nat) (h : Hdr) : Word := at_ 24 op ||| at_ 16 h.flags.toNat ||| w32 h.tag.toNat

/-- The second header word: the number of parameter words, target. -/
def headWord1 (n : Nat) (h : Hdr) : Word := at_ 16 n ||| w32 h.target.toNat

/-- What the CRC word of a command packet covers (R47). -/
def packetBody (op : Nat) (h : Hdr) (ws : List Word) : List Word := [headWord0 op h, headWord1 ws.length h] ++ ws

/-- The CRC word of a command packet. -/
def packetCrc (op : Nat) (h : Hdr) (ws : List Word) : Word := crc32cWords (packetBody op h ws)

/-- The header a packet's first two words spell. -/
def headerOf (w0 w1 : Word) : Hdr where
  flags := BitVec.ofNat 8 (fld w0 23 16)
  tag := BitVec.ofNat 16 (fld w0 15 0)
  target := BitVec.ofNat 16 (fld w1 15 0)

theorem packetBytes_eq (op : Nat) (h : Hdr) (ws : List Word) :
    State.packetBytes op h ws = (packetBody op h ws ++ [packetCrc op h ws]).flatMap wordBytes := rfl

@[simp] theorem length_packetBody (op : Nat) (h : Hdr) (ws : List Word) : (packetBody op h ws).length = 2 + ws.length := by
  simp only [packetBody, List.length_append, List.length_cons, List.length_nil]

theorem headWord0_toNat {op : Nat} (h : Hdr) (hop : op < 256) :
    (headWord0 op h).toNat = 2 ^ 24 * op + (2 ^ 16 * h.flags.toNat + h.tag.toNat) :=
  toNat_at_or_at_or_w32 hop h.flags.isLt h.tag.isLt

theorem headWord1_toNat {n : Nat} (h : Hdr) (hn : n < 2 ^ 16) :
    (headWord1 n h).toNat = 2 ^ 16 * n + h.target.toNat := toNat_at_or_w32 hn h.target.isLt

theorem opcode_headWord0 {op : Nat} (h : Hdr) (hop : op < 256) : fld (headWord0 op h) 31 24 = op := by
  have hflags := h.flags.isLt
  have htag := h.tag.isLt
  rw [fld, headWord0_toNat h hop]
  omega

theorem count_headWord1 {n : Nat} (h : Hdr) (hn : n < 2 ^ 16) : fld (headWord1 n h) 31 16 = n := by
  have htarget := h.target.isLt
  rw [fld, headWord1_toNat h hn]
  omega

theorem headerOf_headWords {op n : Nat} (h : Hdr) (hop : op < 256) (hn : n < 2 ^ 16) :
    headerOf (headWord0 op h) (headWord1 n h) = h := by
  have hflags := h.flags.isLt
  have htag := h.tag.isLt
  have htarget := h.target.isLt
  have h1 : BitVec.ofNat 8 (fld (headWord0 op h) 23 16) = h.flags := by
    apply BitVec.eq_of_toNat_eq
    rw [BitVec.toNat_ofNat, fld, headWord0_toNat h hop]
    omega
  have h2 : BitVec.ofNat 16 (fld (headWord0 op h) 15 0) = h.tag := by
    apply BitVec.eq_of_toNat_eq
    rw [BitVec.toNat_ofNat, fld, headWord0_toNat h hop]
    omega
  have h3 : BitVec.ofNat 16 (fld (headWord1 n h) 15 0) = h.target := by
    apply BitVec.eq_of_toNat_eq
    rw [BitVec.toNat_ofNat, fld, headWord1_toNat h hn]
    omega
  rw [headerOf, h1, h2, h3]

/-! ### The judgement of a packet -/

namespace State

/-- The state in which a packet is judged: the port's view before it is kept (R46). -/
def judging (s : State) : State := { s with gh := { s.gh with before := s.portView, raised := false } }

/-- An idle Gatehouse accepts a packet that is whole (R50, steps 1 to 3). -/
theorem judgePacket_packetBytes {s : State} {op : Nat} (h : Hdr) {ws : List Word} (hready : s.gh.ready = true)
    (hidle : s.gh.running = none) (hop : op < 256) (hlen : ws.length ≤ 4096) :
    s.judgePacket (packetBytes op h ws) = s.judging.acceptPacket op h ws (packetCrc op h ws) := by
  have hws : toWords (packetBytes op h ws) = packetBody op h ws ++ [packetCrc op h ws] := by
    rw [packetBytes_eq, toWords_flatMap_wordBytes]
  have hbytes : (packetBytes op h ws).length = 4 * (3 + ws.length) := by
    rw [packetBytes_eq, length_flatMap_wordBytes, List.length_append, length_packetBody, List.length_singleton]; omega
  have hcount : fld ((packetBody op h ws ++ [packetCrc op h ws]).getD 1 0) 31 16 = ws.length :=
    count_headWord1 h (by omega)
  have hbody : (packetBody op h ws ++ [packetCrc op h ws]).take (2 + ws.length) = packetBody op h ws :=
    List.take_left' (length_packetBody op h ws)
  have hcrc : (packetBody op h ws ++ [packetCrc op h ws]).getD (2 + ws.length) 0 = packetCrc op h ws := by
    rw [List.getD_eq_getElem?_getD, ← length_packetBody op h ws, List.getElem?_concat_length]
    rfl
  have hhead := headerOf_headWords (n := ws.length) h hop (by omega)
  have hfree : ¬((!s.gh.ready) = true ∨ s.gh.running.isSome = true) := by
    rw [hready, hidle]
    decide
  have hwhole : ¬((packetBytes op h ws).length % 4 ≠ 0 ∨ (packetBytes op h ws).length < 12 ∨
      (packetBody op h ws ++ [packetCrc op h ws]).length ≠ 3 + ws.length ∨ 4096 < ws.length) := by
    rw [hbytes, List.length_append, length_packetBody, List.length_singleton]
    omega
  have hsum : ¬(crc32cWords (packetBody op h ws) ≠ packetCrc op h ws) := not_not_intro rfl
  unfold judgePacket
  dsimp only
  rw [hws, hcount, hbody, hcrc, if_neg hfree, if_neg hwhole, if_neg hsum]
  show s.judging.acceptPacket (fld (headWord0 op h) 31 24) (headerOf (headWord0 op h) (headWord1 ws.length h)) ws _ = _
  rw [opcode_headWord0 h hop, hhead]

end State

end Sys2Proof.Machine
end

section
/-!
CERTIFICATE. A packet whose tag and CRC word match an entry of the replay cache gets the stored reply and has no effect
(R56, R59): nothing but the port's own record changes.
-/
namespace Sys2Proof.Machine

open Sys2Proof State

/-- A state that the replay of entry `c` leaves: nothing outside the Gatehouse differs, no command runs, and the watchdog, the
auth level and, for a DONE reply, the cache stay. -/
structure State.ReplayedTo (s : State) (c : CacheEntry) (t : State) : Prop where
  outside : s.onlyGatehouse t
  idle : t.gh.running = none
  wdog : t.gh.wdog = s.gh.wdog
  auth : t.gh.auth = s.gh.auth
  cache : c.reply.status = 0 → t.gh.cache = s.gh.cache

namespace State

/-- An accepted packet that matches an entry of the cache is answered from it (R51, R56). -/
theorem acceptPacket_replayedTo {s : State} {c : CacheEntry} (op : Nat) {h : Hdr} (ws : List Word)
    (hidle : s.gh.running = none) (htag : h.tag ≠ 0) (hflags : h.flags &&& 0xFE = 0)
    (hfind : s.gh.cache.find? (fun e => decide (e.tag = h.tag)) = some c) :
    s.ReplayedTo c (s.acceptPacket op h ws c.crc) := by
  unfold acceptPacket
  dsimp only
  rw [if_neg (not_or.mpr ⟨htag, fun hbad => hbad hflags⟩), hfind]
  dsimp only
  rw [if_neg (not_not_intro rfl)]
  exact { outside := rfl, idle := hidle, wdog := rfl, auth := rfl, cache := fun hdone => if_pos hdone }

theorem onlyGatehouse_of_judging {s t : State} (ht : s.judging.onlyGatehouse t) : s.onlyGatehouse t := by
  have hout := congrArg (fun u : State => ({ u with gh := s.gh } : State)) ht
  exact hout

/-- So is a whole packet that an idle Gatehouse judges. -/
theorem judgePacket_replayedTo {s : State} {c : CacheEntry} {op : Nat} {h : Hdr} {ws : List Word}
    (hready : s.gh.ready = true) (hidle : s.gh.running = none) (hop : op < 256) (hlen : ws.length ≤ 4096)
    (htag : h.tag ≠ 0) (hflags : h.flags &&& 0xFE = 0)
    (hfind : s.gh.cache.find? (fun e => decide (e.tag = h.tag)) = some c) (hcrc : c.crc = packetCrc op h ws) :
    s.ReplayedTo c (s.judgePacket (packetBytes op h ws)) := by
  rw [judgePacket_packetBytes h hready hidle hop hlen, ← hcrc]
  obtain ⟨houtside, hnone, hwdog, hauth, hcache⟩ :=
    acceptPacket_replayedTo (s := s.judging) op ws hidle htag hflags hfind
  exact { outside := onlyGatehouse_of_judging houtside, idle := hnone, wdog := hwdog, auth := hauth, cache := hcache }

/-- With no command running, no packet is accepted. -/
theorem accepted_idle {s : State} (op : Nat) (h : Hdr) (ws : List Word) (hidle : s.gh.running = none) :
    s.accepted op h ws = false := by
  unfold accepted
  rw [hidle]

end State

/-- The row of an opcode whose packet is answered when it is judged acts no further. -/
theorem opRow_judged {s : State} {op : Nat} {h : Hdr} {ws : List Word} (f : State → OpRes) (hheld : s.pwr.held = false)
    (hidle : s.gh.running = none) (hanswered : (s.judgePacket (packetBytes op h ws)).gh.running = none) :
    opRow op h ws s f = .next (s.judgePacket (packetBytes op h ws)) := by
  simp only [opRow, cmdRow, hheld, accepted_idle _ _ _ hidle, accepted_idle _ _ _ hanswered, Bool.false_eq_true, if_false]

/-- WRITE_PACKET outside tGAPW is the judgement of its bytes. -/
theorem exec_writePacket {s : State} (bytes : List Byte) (hheld : s.pwr.held = false) :
    exec (.writePacket bytes false) s = .next (s.judgePacket bytes) := by
  show execWritePacket bytes false s = _
  simp only [execWritePacket, hheld, Bool.false_eq_true, if_false]

/-- Settles O7: the judgement of a replayed packet changes the port's record only, and the row of its opcode stops there. -/
theorem replayHasNoEffect : Obligations.ReplayHasNoEffect := by
  intro s op h ws c addr value hheld hready hidle hop hlen htag hflags hfind crcOf quiet
  have hquiet : ∀ {t}, s.ReplayedTo c t → quiet t := fun ht => ⟨ht.outside, ht.idle, ht.wdog, ht.auth, ht.cache⟩
  have hjudge : ∀ {op ws}, op < 256 → ws.length ≤ 4096 → c.crc = crcOf op ws →
      s.ReplayedTo c (s.judgePacket (packetBytes op h ws)) :=
    fun hop hlen hcrc => judgePacket_replayedTo hready hidle hop hlen htag hflags hfind hcrc
  have hrow : ∀ {op ws} (f : State → OpRes), op < 256 → ws.length ≤ 4096 → c.crc = crcOf op ws →
      ∃ t, opRow op h ws s f = .next t ∧ quiet t := fun f hop hlen hcrc =>
    have ht := hjudge hop hlen hcrc
    ⟨_, opRow_judged f hheld hidle ht.idle, hquiet ht⟩
  refine ⟨fun hcrc => ?_, fun hcrc => ?_, fun hcrc => ?_⟩
  · exact ⟨_, exec_writePacket _ hheld, hquiet (hjudge hop hlen hcrc)⟩
  · show ∃ t, execWatchdogKick h s = .next t ∧ quiet t
    exact hrow _ (by decide) (by decide) hcrc
  · show ∃ t, execParamWrite h addr value s = .next t ∧ quiet t
    exact hrow _ (by decide) (by decide : 2 ≤ 4096) hcrc

end Sys2Proof.Machine
end

section
/-!
CERTIFICATE. READ_STATUS and a first byte that names no transaction (R43, R44), and PARAM_READ of the two registers that
READ_STATUS returns.
-/
namespace Sys2Proof.Machine

open Sys2Proof State

/-! ### Transactions -/

/-- READ_STATUS outside tGAPW (R43). -/
theorem exec_readStatus {s : State} (hheld : s.pwr.held = false) :
    exec (.readStatus false) s = .next { s with gh := { s.gh with
      portOut := [s.portStat, s.replyInfo, crc32cWords [s.portStat, s.replyInfo]], alert := false } } := by
  show execReadStatus false s = _
  unfold execReadStatus
  rw [if_neg (by rw [hheld]; decide)]
  rfl

/-- A first byte that names no transaction (R44). -/
theorem exec_badTransactionCode {s : State} {code : Byte} (hheld : s.pwr.held = false)
    (hcode : code ∉ ([0x02, 0x32, 0x0B, 0x6B, 0x05, 0x65] : List Byte)) :
    exec (.badTransactionCode code) s = .next (s.portBad 0x05 0x01) := by
  show execBadTransactionCode code s = _
  unfold execBadTransactionCode
  rw [if_neg (not_or.mpr ⟨by rw [hheld]; decide, hcode⟩)]

/-- Settles O5: the transaction is counted as a bad frame and changes nothing else. -/
theorem badTransactionCode : Obligations.BadTransactionCode := by
  intro s code hheld hcode
  exact ⟨s.portBad 0x05 0x01, exec_badTransactionCode hheld hcode, rfl, rfl, rfl, rfl, rfl, rfl, rfl, rfl⟩

/-! ### PARAM_READ of the Gatehouse's registers -/

namespace State

/-- The Gatehouse lies in the device domain and in the hub: nothing keeps its own commands from it (R33, R77). -/
theorem accessError_gatehouse (s : State) (o : Nat) : s.accessError 0x200 .gatehouse o = 0 := by
  have hpath : s.pathCut 0x200 (portOf .gatehouse) = false := by
    rfl
  have htest : s.bistHolds .gatehouse = false := Bool.and_false _
  unfold accessError
  rw [hpath, htest]
  rfl

theorem paramCheck_gatehouse {s : State} {a o : Nat} (hplace : placeOf a = some (.gatehouse, o)) :
    s.paramCheck false [a] = 0 := by
  have htest : s.bistHolds .gatehouse = false := Bool.and_false _
  have hreach : s.reach (placeDomain .gatehouse) = 0 := rfl
  have hplaces : [a].filterMap (fun a => (placeOf a).map (fun x => x.1)) = [.gatehouse] := by
    rw [List.filterMap_cons, hplace]
    rfl
  unfold paramCheck
  rw [hplaces]
  simp only [List.any_cons, List.any_nil, List.map_cons, List.map_nil, hreach, htest, Bool.false_and, Bool.or_false, ne_eq,
    not_true_eq_false, decide_false, firstRefusal, Bool.false_eq_true, if_false]

/-- The Gatehouse's registers are no stored words of R486. -/
theorem storedUpset_gatehouse (s : State) (o : Nat) : s.storedUpset .gatehouse o = .clean := by
  simp only [storedUpset, wordPlace, Bool.false_eq_true, if_false, ite_self]

/-- A read of a Gatehouse register that clears nothing returns the word and changes nothing. -/
theorem readWord_gatehouse (s : State) {a o : Nat} (hplace : placeOf a = some (.gatehouse, o))
    (hrc : (specIn .gatehouse o).rc = 0) : s.readWord a = (s.peekGatehouse o, s) := by
  have hlatch : s.latched .gatehouse o = none := rfl
  have hmeet : s.readMeet .gatehouse o = s := by
    unfold readMeet
    rw [storedUpset_gatehouse, if_neg (by decide)]
  have hclear : s.clearRead .gatehouse o a = s := if_pos hrc
  have hshown : s.shown .gatehouse o a = s.peekGatehouse o := if_pos hrc
  simp only [readWord, hplace, hlatch, hmeet, hclear, hshown]

/-- PARAM_READ of such a register answers DONE with its word; the request is counted at the hub. -/
theorem opParamRead_gatehouse (s : State) {addr : Word} {o : Nat} (hplace : placeOf addr.toNat = some (.gatehouse, o))
    (hrc : (specIn .gatehouse o).rc = 0) :
    s.opParamRead addr = opDone (s.hubSent 0x200 0x200) [(s.hubSent 0x200 0x200).peekGatehouse o] := by
  have hgood : (s.hubSent 0x200 0x200).storedBad .gatehouse o = false :=
    decide_eq_false (by rw [storedUpset_gatehouse]; decide)
  unfold opParamRead
  simp only [paramCheck_gatehouse hplace, hplace, accessError_gatehouse, portOf, hgood, readWord_gatehouse _ hplace hrc,
    ne_eq, not_true_eq_false, Bool.false_eq_true, if_false]

/-- The final reply asks for CPORT_ALERT_N as its packet's NOTIFY flag says (R47). -/
theorem finish_alert {s : State} {op : Nat} {h : Hdr} {ws : List Word} (haccepted : s.accepted op h ws = true)
    (st re : Byte) (ds : List Word) :
    (s.finish st re ds).gh.alert = (s.gh.alert || decide (h.flags &&& 1 ≠ 0)) := by
  unfold accepted at haccepted
  unfold finish
  cases hrun : s.gh.running with
  | none =>
    rw [hrun] at haccepted
    exact absurd haccepted Bool.false_ne_true
  | some r =>
    simp only [hrun, Bool.and_eq_true, decide_eq_true_eq] at haccepted
    obtain ⟨⟨⟨-, rfl⟩, -⟩, -⟩ := haccepted
    rfl

theorem accepted_of_runs {s : State} {op : Nat} {h : Hdr} {ws : List Word} (hruns : s.runs op h ws = true) :
    s.accepted op h ws = true := by
  simp only [runs, Bool.and_eq_true] at hruns
  obtain ⟨⟨⟨-, haccepted⟩, -⟩, -⟩ := hruns
  exact haccepted

end State

/-- A PARAM_READ of such a register that the Gatehouse carries out: the word is in the reply, and the alert is not released. -/
theorem exec_paramRead_gatehouse {s : State} {h : Hdr} {addr : Word} {o : Nat} (hruns : s.runs 0x10 h [addr] = true)
    (hplace : placeOf addr.toNat = some (.gatehouse, o)) (hrc : (specIn .gatehouse o).rc = 0) :
    ∃ t, exec (.paramRead h addr) s = .next t ∧
      t.answered 0x10 h 0 0 [(s.hubSent 0x200 0x200).peekGatehouse o] ∧
      t.gh.alert = (s.gh.alert || decide (h.flags &&& 1 ≠ 0)) := by
  refine ⟨(s.hubSent 0x200 0x200).finish 0 0 [(s.hubSent 0x200 0x200).peekGatehouse o], ?_, ?_, ?_⟩
  · show opRow 0x10 h [addr] s (fun s => s.opParamRead addr) = _
    rw [opRow_runs _ hruns, opParamRead_gatehouse s hplace hrc]
    rfl
  · exact answered_of_running (t := s.hubSent 0x200 0x200) hruns rfl 0 0 _ (Or.inl rfl)
  · exact finish_alert (s := s.hubSent 0x200 0x200) (accepted_of_runs hruns) 0 0 _

/-- Settles O4: GH_PORT_STAT and GH_REPLY_INFO show the same through the port and through PARAM_READ; only the port's
transaction releases the alert. -/
theorem readStatusTransaction : Obligations.ReadStatusTransaction := by
  intro s hheld
  refine ⟨exec_readStatus hheld, fun h hruns => ?_, fun h hruns => ?_⟩
  · exact exec_paramRead_gatehouse (o := 0) hruns (by decide) (by decide)
  · exact exec_paramRead_gatehouse (o := 4) hruns (by decide) (by decide)

end Sys2Proof.Machine
end

section
/-!
CERTIFICATE. PING, IDENTIFY and STATUS (R65, R96): each answers DONE with words read from the state it runs in, and only the
Gatehouse's reply is written.
-/
namespace Sys2Proof.Machine

open Sys2Proof State

/-- The final reply is the Gatehouse's own record. -/
theorem State.finish_onlyGatehouse (s : State) (st re : Byte) (ds : List Word) :
    s.onlyGatehouse (s.finish st re ds) := by
  unfold State.finish
  cases s.gh.running with
  | none => rfl
  | some r => rfl

/-- A command whose row only answers DONE with words of the state it runs in: all are words of the one state `s`. -/
theorem State.replies_of_opDone {s : State} {i : Instr} {op : Nat} {h : Hdr} {params : List Word}
    (words : State → List Word) (hrow : exec i s = opRow op h params s (fun u => opDone u (words u)))
    (hruns : s.runs op h params = true) : s.replies i op h 0 0 (words s) (fun t => s.onlyGatehouse t) := by
  have hnext : exec i s = .next (s.finish 0 0 (words s)) := hrow.trans (opRow_runs _ hruns)
  exact ⟨s.finish 0 0 (words s), hnext, answered_finish hruns 0 0 (words s) (Or.inl rfl),
    s.finish_onlyGatehouse 0 0 (words s)⟩

theorem exec_identify (h : Hdr) (s : State) : exec (.identify h) s = opRow 0x02 h [] s
    (fun u => opDone u ([0x00, 0x04, 0x08, 0x0C, 0x1C, 0x20, 0x24, 0x10].map u.peek)) := rfl

theorem exec_status (h : Hdr) (s : State) : exec (.status h) s = opRow 0x03 h [] s
    (fun u => opDone u ([0x10, 0x18, 0x28, 0x10000].map u.peek)) := rfl

theorem exec_ping (h : Hdr) (ws : List Word) (s : State) :
    exec (.ping h ws) s = opRow 0x01 h ws s (fun u => opDone u ws) := rfl

/-- Settles O27: each row only answers DONE, with words of the state before the reply is written. -/
theorem identifyAndStatus : Obligations.IdentifyAndStatus := by
  intro s h ws
  refine ⟨fun hruns => ?_, fun hruns => ?_, fun hruns => ?_⟩
  · exact replies_of_opDone (fun u => [0x00, 0x04, 0x08, 0x0C, 0x1C, 0x20, 0x24, 0x10].map u.peek)
      (exec_identify h s) hruns
  · exact replies_of_opDone (fun u => [0x10, 0x18, 0x28, 0x10000].map u.peek) (exec_status h s) hruns
  · exact replies_of_opDone (fun _ => ws) (exec_ping h ws s) hruns

end Sys2Proof.Machine
end

section
/-!
CERTIFICATE. CAIRN_SET, TIME_ADDEND and TIME_STEP while TB_CTRL.EN is 0 (R103): EN is judged before any parameter word, so
each is refused as it is.
-/
namespace Sys2Proof.Machine

open Sys2Proof State

namespace State

/-- A command whose row refuses in the state it runs in: only the reply is written. -/
theorem replies_of_opRefuse {s : State} {i : Instr} {op : Nat} {h : Hdr} {params : List Word} {f : State → OpRes} {re : Byte}
    (hrow : exec i s = opRow op h params s f) (hruns : s.runs op h params = true) (hrefuse : f s = opRefuse s re) :
    s.replies i op h 2 re [] (fun t => s.onlyGatehouse t) := by
  have hnext : exec i s = .next (s.finish 2 re []) := by
    rw [hrow, opRow_runs f hruns, hrefuse]
    rfl
  have hdata : (2 : Byte) = 0 ∨ (2 : Byte) = 3 ∨ (2 : Byte) = 4 ∨ ([] : List Word) = [] := Or.inr (Or.inr (Or.inr rfl))
  exact ⟨s.finish 2 re [], hnext, answered_finish hruns 2 re [] hdata, s.finish_onlyGatehouse 2 re []⟩

/-! ### The timebase disabled -/

/-- The timebase is on exactly when TB_CTRL.EN is set. -/
theorem tbOn_eq_bit (s : State) : s.tbOn = bit (s.reg 0x30000) 0 := rfl

theorem opCairnSet_tbOff {s : State} (hoff : s.tbOn = false) (index sf fp act rep : Word) :
    s.opCairnSet index sf fp act rep = opRefuse s 7 := by
  unfold opCairnSet
  exact if_pos (by rw [hoff]; rfl)

theorem opTimeAddend_tbOff {s : State} (hoff : s.tbOn = false) (hi lo : Word) :
    s.opTimeAddend hi lo = opRefuse s 7 := by
  unfold opTimeAddend
  exact if_pos (by rw [hoff]; rfl)

theorem opTimeStep_tbOff {s : State} (hoff : s.tbOn = false) (w2 w1 w0 : Word) :
    s.opTimeStep w2 w1 w0 = opRefuse s 7 := by
  unfold opTimeStep
  exact if_pos (by rw [hoff]; rfl)

end State

theorem exec_cairnSet (h : Hdr) (index sf fp act rep : Word) (s : State) :
    exec (.cairnSet h index sf fp act rep) s =
      opRow 0x40 h [index, sf, fp, act, rep] s (fun u => u.opCairnSet index sf fp act rep) := rfl

theorem exec_timeAddend (h : Hdr) (hi lo : Word) (s : State) :
    exec (.timeAddend h hi lo) s = opRow 0x42 h [hi, lo] s (fun u => u.opTimeAddend hi lo) := rfl

theorem exec_timeStep (h : Hdr) (w2 w1 w0 : Word) (s : State) :
    exec (.timeStep h w2 w1 w0) s = opRow 0x43 h [w2, w1, w0] s (fun u => u.opTimeStep w2 w1 w0) := rfl

/-- Settles O31: with EN clear each of the three rows refuses in the state it runs in, whatever its words. -/
theorem timeCommandsNeedTheTimebase : Obligations.TimeCommandsNeedTheTimebase := by
  intro s h a b c d e hen
  have hoff : s.tbOn = false := (tbOn_eq_bit s).trans hen
  refine ⟨fun hruns => ?_, fun hruns => ?_, fun hruns => ?_⟩
  · exact replies_of_opRefuse (exec_cairnSet h a b c d e s) hruns (opCairnSet_tbOff hoff a b c d e)
  · exact replies_of_opRefuse (exec_timeAddend h a b s) hruns (opTimeAddend_tbOff hoff a b)
  · exact replies_of_opRefuse (exec_timeStep h a b c s) hruns (opTimeStep_tbOff hoff a b c)

end Sys2Proof.Machine
end

section
/-!
SUPPORT. An engine instruction whose effect is a value for one register: it completes with that value and changes nothing
else, if at its issue the effect is that register's write.
-/
namespace Sys2Proof.Machine

open Sys2Proof State

namespace State

/-! ### The operands at issue -/

@[simp] theorem g_issued (s : State) (e n : Nat) : ((s.issued e).eng e).g n = (s.eng e).g n := by
  rw [issued_eng]
  rfl

@[simp] theorem acc_issued (s : State) (e a : Nat) : ((s.issued e).eng e).acc a = (s.eng e).acc a := by
  rw [issued_eng]
  rfl

@[simp] theorem status_issued (s : State) (e : Nat) : ((s.issued e).eng e).status = (s.eng e).status := by
  rw [issued_eng]
  rfl

/-! ### One register result -/

/-- An instruction whose effect is a register's write completes with that value, and goes on (R351). -/
theorem writes_of_instr {s : State} {i : Instr} {e rd : Nat} {v : Word} {regs : List Nat} {f : State → State}
    (hexec : exec i s = instr e regs s f) (hq : s.quiet e = true) (he : e < 64)
    (hregs : regs.all (fun r => decide (r < 32)) = true) (hf : f (s.issued e) = (s.issued e).putG e rd v) :
    s.writes i e rd v := by
  obtain ⟨-, -, -, -, hstop, -, -, -, hrun, hwait, -, -⟩ := quiet_parts hq
  have hnext : exec i s = .next (((s.issued e).putG e rd v).settle e) := by
    rw [hexec, instr_quiet f hq he hregs, hf]
  refine retires_of_put hnext hq ?_ ?_ ?_ ?_
  · rw [Engine.advance_wait, Engine.setG_wait]
    exact hwait
  · rw [Engine.advance_st, Engine.setG_st]
    exact hrun
  · rw [Engine.advance_stopPending, Engine.setG_stopPending]
    exact hstop
  · rw [Engine.advance_dbg, Engine.setG_dbg]

/-- So does an instruction on an accumulator that exists. -/
theorem writes_of_accOp {s : State} {i : Instr} {e a x : Nat} {v : Word} {value : Engine → Word}
    (hexec : exec i s = accOp e a [x] s (fun z => z.setG x (value z))) (hq : s.quiet e = true) (he : e < 64)
    (ha : a < 2) (hx : x < 32) (hvalue : value ((s.issued e).eng e) = v) : s.writes i e x v := by
  refine writes_of_instr hexec hq he (by simpa using hx) ?_
  rw [if_neg (by omega), ← hvalue]
  rfl

end State

end Sys2Proof.Machine
end

section
/-!
CERTIFICATE. AMOV (R358): the word it moves, shifted exactly, rounded and clamped, and the register that takes it.
-/
namespace Sys2Proof.Machine

open Sys2Proof State

theorem amovWord_low (status : Word) (acc : BitVec 40) (sh : BitVec 5) : amovWord status acc sh false =
    BitVec.ofInt 32 (clampInt (-2147483648) 2147483647 (shiftExact acc.toInt sh.toInt)) := rfl

theorem amovWord_high (status : Word) (acc : BitVec 40) (sh : BitVec 5) : amovWord status acc sh true =
    BitVec.ofInt 32 (clampInt (-32768) 32767 ((if status.getLsbD 3 then shiftExact acc.toInt sh.toInt + 32768
      else shiftExact acc.toInt sh.toInt) / 65536)) := rfl

/-- AMOV takes the accumulator and STATUS before it. -/
theorem writes_amov {s : State} {e a x : Nat} (sh : BitVec 5) (hi : Bool) (hq : s.quiet e = true) (he : e < 64)
    (ha : a < 2) (hx : x < 32) :
    s.writes (.amov e a x sh hi) e x (amovWord (s.eng e).status ((s.eng e).acc a) sh hi) :=
  writes_of_accOp (value := fun z => amovWord z.status (z.acc a) sh hi) rfl hq he ha hx (by simp)

/-- Settles O17: with H = 0 and with H = 1, AMOV's word is the one R358 gives. -/
theorem amovExtraction : Obligations.AmovExtraction := by
  intro s e a x sh hq he ha hx acc v
  have hlow := writes_amov sh false hq he ha hx
  have hhigh := writes_amov sh true hq he ha hx
  rw [amovWord_low] at hlow
  rw [amovWord_high] at hhigh
  exact ⟨hlow, hhigh⟩

end Sys2Proof.Machine
end

section
/-!
CERTIFICATE. CLS, BEXP and AEXP (R359): the count of leading bits equal to the top bit, and the words made from it.
-/
namespace Sys2Proof.Machine

open Sys2Proof State

/-! ### The count -/

/-- The top `n` of `w` bits are the leading bits equal to the top bit, and no more are. -/
structure LeadsBy {w : Nat} (v : BitVec w) (n : Nat) : Prop where
  pos : 1 ≤ n
  le : n ≤ w
  same : ∀ k, k < n → v.getMsbD k = v.getMsbD 0
  stop : n = w ∨ v.getMsbD n ≠ v.getMsbD 0

/-- A digit of a number's binary form is its bit k from the top. -/
theorem toNat_getMsbD {w : Nat} (v : BitVec w) {k : Nat} (hk : k < w) :
    v.toNat / 2 ^ (w - 1 - k) % 2 = (v.getMsbD k).toNat := by
  rw [BitVec.getMsbD_eq_getLsbD, decide_eq_true hk, Bool.true_and, BitVec.getLsbD, Nat.toNat_testBit]

theorem boolToNat_eq_iff (a b : Bool) : a.toNat = b.toNat ↔ a = b := by
  cases a <;> cases b <;> decide

/-- The model's comparison of bit k from the top with the top bit. -/
theorem div_mod_eq_top_iff {w : Nat} (v : BitVec w) {k : Nat} (hk : k < w) :
    v.toNat / 2 ^ (w - 1 - k) % 2 = v.toNat / 2 ^ (w - 1) % 2 ↔ v.getMsbD k = v.getMsbD 0 := by
  have htop : v.toNat / 2 ^ (w - 1) % 2 = (v.getMsbD 0).toNat := toNat_getMsbD v (Nat.zero_lt_of_lt hk)
  rw [toNat_getMsbD v hk, htop, boolToNat_eq_iff]

/-- The first `n` of `range w`, all that hold before one that fails or before the end, are what `takeWhile` takes. -/
theorem takeWhile_range {w n : Nat} {p : Nat → Bool} (hle : n ≤ w) (hall : ∀ k, k < n → p k = true)
    (hstop : n = w ∨ p n = false) : (List.range w).takeWhile p = List.range n := by
  obtain ⟨m, rfl⟩ := Nat.exists_eq_add_of_le hle
  rw [List.range_add, List.takeWhile_append_of_pos (fun k hk => hall k (List.mem_range.mp hk))]
  have hrest : ((List.range m).map (n + ·)).takeWhile p = [] := by
    cases m with
    | zero => rfl
    | succ m =>
      have hn : p n = false := hstop.resolve_left (by omega)
      simp [List.range_succ_eq_map, hn]
  rw [hrest, List.append_nil]

/-- The model's count is that number of leading bits, less one. -/
theorem leadCount_of_leadsBy {w n : Nat} {v : BitVec w} (h : LeadsBy v n) : leadCount w v.toNat = n - 1 := by
  obtain ⟨hpos, hle, hsame, hstop⟩ := h
  have hlead : ∀ k, k < n → decide (v.toNat / 2 ^ (w - 1 - k) % 2 = v.toNat / 2 ^ (w - 1) % 2) = true := fun k hk =>
    decide_eq_true ((div_mod_eq_top_iff v (Nat.lt_of_lt_of_le hk hle)).mpr (hsame k hk))
  have hend : n = w ∨ decide (v.toNat / 2 ^ (w - 1 - n) % 2 = v.toNat / 2 ^ (w - 1) % 2) = false := by
    obtain rfl | hlt := Nat.eq_or_lt_of_le hle
    · exact Or.inl rfl
    · have hdiff := hstop.resolve_left (Nat.ne_of_lt hlt)
      exact Or.inr (decide_eq_false (mt (div_mod_eq_top_iff v hlt).mp hdiff))
  have hlen := congrArg List.length (takeWhile_range hle hlead hend)
  rw [List.length_range] at hlen
  unfold leadCount
  dsimp only
  rw [List.takeWhile_map, List.length_map]
  exact congrArg (· - 1) hlen

/-- All bits of 0 and of -1 are equal. -/
theorem leadsBy_uniform {w : Nat} {v : BitVec w} (hw : 1 ≤ w) (hv : v = 0 ∨ v = BitVec.allOnes w) : LeadsBy v w where
  pos := hw
  le := Nat.le_refl w
  same := by
    intro k hk
    obtain rfl | rfl := hv
    · rw [BitVec.ofNat_eq_ofNat, BitVec.getMsbD_zero, BitVec.getMsbD_zero]
    · rw [BitVec.getMsbD_allOnes, BitVec.getMsbD_allOnes, decide_eq_true hk, decide_eq_true (Nat.zero_lt_of_lt hk)]
  stop := Or.inl rfl

/-! ### The words -/

theorem clsWord_of_leadsBy {v : Word} {n : Nat} (h : LeadsBy v n) : clsWord v = BitVec.ofNat 32 (n - 1) := by
  rw [clsWord, w32, leadCount_of_leadsBy h]

theorem aexpWord_of_leadsBy {v : BitVec 40} {n : Nat} (h : LeadsBy v n) :
    aexpWord v = BitVec.ofInt 32 ((n : Int) - 9) := by
  have hpos := h.pos
  rw [aexpWord, leadCount_of_leadsBy h]
  congr 1
  omega

/-- The signed minimum of two words is the minimum of their signed values. -/
theorem ite_slt_eq_ofInt_min (c old : Word) :
    (if c.slt old then c else old) = BitVec.ofInt 32 (Min.min old.toInt c.toInt) := by
  rw [BitVec.slt_eq_decide]
  by_cases hlt : c.toInt < old.toInt
  · rw [decide_eq_true hlt, if_pos rfl, Int.min_eq_right (Int.le_of_lt hlt), BitVec.ofInt_toInt]
  · rw [decide_eq_false hlt, if_neg Bool.false_ne_true, Int.min_eq_left (Int.not_lt.mp hlt), BitVec.ofInt_toInt]

theorem toInt_clsWord_of_leadsBy {v : Word} {n : Nat} (h : LeadsBy v n) : (clsWord v).toInt = (n : Int) - 1 := by
  have hpos := h.pos
  have hle := h.le
  have hval : (BitVec.ofNat 32 (n - 1)).toNat = n - 1 := by
    rw [BitVec.toNat_ofNat]
    omega
  rw [clsWord_of_leadsBy h, BitVec.toInt_eq_toNat_of_lt (by omega), hval]
  omega

/-! ### The instructions -/

theorem writes_cls {s : State} {e rd ra : Nat} (hq : s.quiet e = true) (he : e < 64) (hrd : rd < 32) (hra : ra < 32) :
    s.writes (.cls e rd ra) e rd (clsWord ((s.eng e).g ra)) := by
  refine writes_of_instr (regs := [rd, ra]) rfl hq he (by simp [hrd, hra]) ?_
  rw [g_issued]

theorem writes_bexp {s : State} {e rd ra : Nat} (hq : s.quiet e = true) (he : e < 64) (hrd : rd < 32) (hra : ra < 32) :
    s.writes (.bexp e rd ra) e rd
      (BitVec.ofInt 32 (Min.min ((s.eng e).g rd).toInt (clsWord ((s.eng e).g ra)).toInt)) := by
  refine writes_of_instr (regs := [rd, ra]) rfl hq he (by simp [hrd, hra]) ?_
  dsimp only
  rw [g_issued, g_issued, ite_slt_eq_ofInt_min]

theorem writes_aexp {s : State} {e a x : Nat} (hq : s.quiet e = true) (he : e < 64) (ha : a < 2) (hx : x < 32) :
    s.writes (.aexp e a x) e x (aexpWord ((s.eng e).acc a)) :=
  writes_of_accOp (value := fun z => aexpWord (z.acc a)) rfl hq he ha hx (by rw [acc_issued])

/-- Settles O9: the model's count is the number of leading bits less one, for 32 and for 40 bits; 0 and -1 have 40. -/
theorem leadingBitCounts : Obligations.LeadingBitCounts := by
  intro s e rd ra a n hq he hrd hra ha v acc
  have haexp : ∀ {m}, LeadsBy acc m → s.writes (.aexp e a rd) e rd (BitVec.ofInt 32 ((m : Int) - 9)) := fun h =>
    aexpWord_of_leadsBy h ▸ writes_aexp hq he ha hrd
  refine ⟨?_, ?_, ?_⟩
  · rintro ⟨hpos, hle, hsame, hstop⟩
    have h : LeadsBy v n := ⟨hpos, hle, hsame, hstop⟩
    exact ⟨clsWord_of_leadsBy h ▸ writes_cls hq he hrd hra,
      toInt_clsWord_of_leadsBy h ▸ writes_bexp hq he hrd hra⟩
  · rintro ⟨hpos, hle, hsame, hstop⟩
    exact haexp ⟨hpos, hle, hsame, hstop⟩
  · intro hacc
    exact haexp (leadsBy_uniform (by decide) hacc)

end Sys2Proof.Machine
end
